-- ==== Sys2Proof/Word.lean ====
section
/-! DEFINITION. The widths of the RW47's values (00_scope.md, Principal Figures and Conventions) and the tables with a
fixed number of rows. -/

namespace Sys2Proof

/-- A byte, 8 bits. -/
abbrev Byte := BitVec 8
/-- A word, 16 bits. -/
abbrev Word := BitVec 16
/-- A long, 32 bits. -/
abbrev Long := BitVec 32
/-- A virtual address, 22 bits. -/
abbrev VAddr := BitVec 22
/-- A physical address, 24 bits. -/
abbrev PAddr := BitVec 24
/-- A virtual page number, virtual address bits 21..11. -/
abbrev Vpn := BitVec 11
/-- A frame, physical address bits 23..11. -/
abbrev Frame := BitVec 13
/-- A port number. -/
abbrev Port := BitVec 8
/-- The number of one of the sixteen domains. -/
abbrev DomainId := Fin 16
/-- The number of one of the eight normal channels. -/
abbrev ChannelId := Fin 8

end Sys2Proof
end

