-- ==== Sys2Proof/Config.lean ====
section
/-! DEFINITION. The constants that the RW47's specification fixes. The specification leaves no value open that a step of
the part must produce, so there is no free value here. -/

namespace Sys2Proof.Config

/-- IDR reads 0047H at all times (R175). -/
def identity : Word := 0x0047#16
/-- The value whose write to CTRL begins an engine reset (R179). -/
def engineResetKey : Word := 0x5AA5#16
/-- The revision word of the save image (R143). -/
def imageRevision : Word := 0x0047#16
/-- The words of a save image: 288 bytes (R142). -/
def imageWords : Nat := 144
/-- The records that the fault queue can hold (R122). -/
def queueCapacity : Nat := 12
/-- The words of a descriptor: 16 bytes (R64). -/
def descriptorWords : Nat := 8
/-- The save base after hard reset (R136). -/
def resetSaveBase : PAddr := 0x000400#24
/-- The save base staging after hard reset (R136). -/
def resetSaveStaging : Word := 0x0400#16
/-- The highest save base (R153, R159). -/
def highestSaveBase : Nat := 0xFFFE00

end Sys2Proof.Config
end

