-- ==== Sys2Proof/Syntax.lean ====
section
/-! DEFINITION. The commands of the RW47: one constructor of `Instr` per row of spec/opcode_table.json, with the row's
operands. -/

namespace Sys2Proof

/-- How a bus access ends (R172). `ready` carries the lines SD15..SD0 as they stand at the end; a write takes nothing from
them. `busError` is SERR/ asserted, with or without SRDY/. -/
inductive BusEnd where
  | ready (sd : Word)
  | busError
deriving DecidableEq, Repr

/-- The four writable registers of a domain record (R7). -/
inductive DomainField where
  | dbl
  | dbh
  | plim
  | dflag
deriving DecidableEq, Repr

/-- The commands. `hi` is bits 15..8 of the value that the host writes to CMD, which the part ignores (R176). `v` is the
sixteen-bit value of a register write. `preq` gives the levels of PREQ7..PREQ0 that the part samples in the step. `e` says
how the access in flight ends. -/
inductive Instr where
  | domOpen (hi : Byte)
  | domClose (hi : Byte)
  | invAll (hi : Byte)
  | invDomain (hi : Byte)
  | invPage (hi : Byte)
  | probe (hi : Byte)
  | chStart (hi : Byte)
  | chHalt (hi : Byte)
  | chContinue (hi : Byte)
  | chSkip (hi : Byte)
  | chAbort (hi : Byte)
  | fqPop (hi : Byte)
  | urgentReq (hi : Byte)
  | resume (hi : Byte)
  | lockClear (hi : Byte)
  /-- A CMD write whose bits 7..0 name no command (R176). -/
  | unknownCommandCode (v : Word)
  /-- A write of 5AA5H to CTRL (R179). -/
  | engineReset
  /-- The access in flight ends while an engine reset is in progress (R174, R179). -/
  | engineResetComplete
  | tselWrite (v : Word)
  | domainFieldWrite (f : DomainField) (v : Word)
  | grantWordWrite (v : Word)
  | cselWrite (v : Word)
  | wflgWrite (v : Word)
  | doneFlagClear (v : Word)
  | icauseWrite (v : Word)
  | ienaWrite (v : Word)
  | saveBaseLowWrite (v : Word)
  | saveBaseHighWrite (v : Word)
  | listBaseLowWrite (v : Word)
  | listBaseHighWrite (v : Word)
  /-- A write to a register without behaviour of its own. `reg` is WA6..WA1, half the register's offset (R175). -/
  | registerWrite (reg : BitVec 6) (v : Word)
  | hardReset
  | rstRelease
  | urqRequest
  | urqArm
  | lineAsserted (line : Fin 8)
  | schedulerGrant (preq : BitVec 8)
  | walkStart
  | walkAccessEnd (e : BusEnd)
  | fetchReadEnd (e : BusEnd)
  | beatReadEnd (e : BusEnd)
  | beatWriteEnd (e : BusEnd) (preq : BitVec 8)
  | statusWriteEnd (e : BusEnd)
  | saveBegin
  | saveWriteEnd (e : BusEnd)
  | restoreReadEnd (e : BusEnd) (preq : BitVec 8)
  | busGrant
  | busGrantDeasserted
deriving DecidableEq, Repr

end Sys2Proof
end

