-- ==== Sys2Proof/WellFormed.lean ====
section
/-! DEFINITION. Which terms of `Instr` are a row of the table: the two rows that stand for "every other code" and "every
other register" must not name a code or a register that has a row of its own. -/

namespace Sys2Proof

/-- The code names a command: 01H to 0FH (the command table of 11.2, R176). -/
def namesCommand (code : Byte) : Bool := 1 ≤ code.toNat && code.toNat ≤ 0x0F

/-- A write of `v` to the register at offset `2 * reg` has a row of its own: CTRL with 5AA5H, CMD, ICAUSE, IENA, WFLG,
DONE, TSEL, DBL to DFLAG, GRW, CSEL, USBL to ULBH (the register map of 11.1). -/
def hasOwnRow (reg : BitVec 6) (v : Word) : Bool :=
  let offset := 2 * reg.toNat
  (offset == 0x02 && v == Config.engineResetKey)
    || [0x04, 0x10, 0x12, 0x14, 0x16, 0x20, 0x22, 0x24, 0x26, 0x28, 0x2C, 0x38, 0x6C, 0x6E, 0x70, 0x72].contains offset

/-- The term is a row of the table. -/
def Instr.wellFormed : Instr → Bool
  | .unknownCommandCode v => !namesCommand (v.extractLsb' 0 8)
  | .registerWrite reg v => !hasOwnRow reg v
  | .domOpen _ | .domClose _ | .invAll _ | .invDomain _ | .invPage _ | .probe _ | .chStart _ | .chHalt _ => true
  | .chContinue _ | .chSkip _ | .chAbort _ | .fqPop _ | .urgentReq _ | .resume _ | .lockClear _ => true
  | .engineReset | .engineResetComplete | .tselWrite _ | .domainFieldWrite _ _ | .grantWordWrite _ | .cselWrite _ => true
  | .wflgWrite _ | .doneFlagClear _ | .icauseWrite _ | .ienaWrite _ => true
  | .saveBaseLowWrite _ | .saveBaseHighWrite _ | .listBaseLowWrite _ | .listBaseHighWrite _ => true
  | .hardReset | .rstRelease | .urqRequest | .urqArm | .lineAsserted _ => true
  | .schedulerGrant _ | .walkStart | .walkAccessEnd _ | .fetchReadEnd _ | .beatReadEnd _ | .beatWriteEnd _ _ => true
  | .statusWriteEnd _ | .saveBegin | .saveWriteEnd _ | .restoreReadEnd _ _ | .busGrant | .busGrantDeasserted => true

end Sys2Proof
end

