-- ==== Sys2Proof/Decode.lean ====
section
/-! DEFINITION. Decoding. The opcode table gives its rows no bits, so `decodeTableWord` reads no command from a word. The
host does spell commands, as writes to the register window: `rowOfWrite` says which row of the table a write is (11.1,
11.2) and `Instr.asWrite` which write a row is. -/

namespace Sys2Proof

/-- No row of spec/opcode_table.json gives bits. -/
def decodeTableWord (_nbits _w : Nat) : Option Instr := none

/-- The row of a write of `v` to CMD: bits 7..0 are the code, bits 15..8 are ignored (the command table of 11.2, R176). -/
def rowOfCommand (v : Word) : Instr :=
  let hi : Byte := v.extractLsb' 8 8
  match (v.extractLsb' 0 8).toNat with
  | 0x01 => .domOpen hi
  | 0x02 => .domClose hi
  | 0x03 => .invAll hi
  | 0x04 => .invDomain hi
  | 0x05 => .invPage hi
  | 0x06 => .probe hi
  | 0x07 => .chStart hi
  | 0x08 => .chHalt hi
  | 0x09 => .chContinue hi
  | 0x0A => .chSkip hi
  | 0x0B => .chAbort hi
  | 0x0C => .fqPop hi
  | 0x0D => .urgentReq hi
  | 0x0E => .resume hi
  | 0x0F => .lockClear hi
  | _ => .unknownCommandCode v

/-- The row of a write of `v` to the register at offset `2 * reg` (the register map of 11.1). -/
def rowOfWrite (reg : BitVec 6) (v : Word) : Instr :=
  match 2 * reg.toNat with
  | 0x02 => if v = Config.engineResetKey then .engineReset else .registerWrite reg v
  | 0x04 => rowOfCommand v
  | 0x10 => .icauseWrite v
  | 0x12 => .ienaWrite v
  | 0x14 => .wflgWrite v
  | 0x16 => .doneFlagClear v
  | 0x20 => .tselWrite v
  | 0x22 => .domainFieldWrite .dbl v
  | 0x24 => .domainFieldWrite .dbh v
  | 0x26 => .domainFieldWrite .plim v
  | 0x28 => .domainFieldWrite .dflag v
  | 0x2C => .grantWordWrite v
  | 0x38 => .cselWrite v
  | 0x6C => .saveBaseLowWrite v
  | 0x6E => .saveBaseHighWrite v
  | 0x70 => .listBaseLowWrite v
  | 0x72 => .listBaseHighWrite v
  | _ => .registerWrite reg v

/-- A write of the code `code` to CMD with the ignored bits `hi`. -/
def commandWrite (code hi : Byte) : Option (BitVec 6 × Word) := some (0x02#6, hi ++ code)

/-- The offset of a writable field of a domain record, halved (11.1). -/
def DomainField.reg : DomainField → BitVec 6
  | .dbl => 0x11#6
  | .dbh => 0x12#6
  | .plim => 0x13#6
  | .dflag => 0x14#6

/-- The register write that a row is, if it is one. -/
def Instr.asWrite : Instr → Option (BitVec 6 × Word)
  | .domOpen hi => commandWrite 0x01#8 hi
  | .domClose hi => commandWrite 0x02#8 hi
  | .invAll hi => commandWrite 0x03#8 hi
  | .invDomain hi => commandWrite 0x04#8 hi
  | .invPage hi => commandWrite 0x05#8 hi
  | .probe hi => commandWrite 0x06#8 hi
  | .chStart hi => commandWrite 0x07#8 hi
  | .chHalt hi => commandWrite 0x08#8 hi
  | .chContinue hi => commandWrite 0x09#8 hi
  | .chSkip hi => commandWrite 0x0A#8 hi
  | .chAbort hi => commandWrite 0x0B#8 hi
  | .fqPop hi => commandWrite 0x0C#8 hi
  | .urgentReq hi => commandWrite 0x0D#8 hi
  | .resume hi => commandWrite 0x0E#8 hi
  | .lockClear hi => commandWrite 0x0F#8 hi
  | .unknownCommandCode v => some (0x02#6, v)
  | .engineReset => some (0x01#6, Config.engineResetKey)
  | .tselWrite v => some (0x10#6, v)
  | .domainFieldWrite f v => some (f.reg, v)
  | .grantWordWrite v => some (0x16#6, v)
  | .cselWrite v => some (0x1C#6, v)
  | .wflgWrite v => some (0x0A#6, v)
  | .doneFlagClear v => some (0x0B#6, v)
  | .icauseWrite v => some (0x08#6, v)
  | .ienaWrite v => some (0x09#6, v)
  | .saveBaseLowWrite v => some (0x36#6, v)
  | .saveBaseHighWrite v => some (0x37#6, v)
  | .listBaseLowWrite v => some (0x38#6, v)
  | .listBaseHighWrite v => some (0x39#6, v)
  | .registerWrite reg v => some (reg, v)
  | .engineResetComplete | .hardReset | .rstRelease | .urqRequest | .urqArm | .lineAsserted _ => none
  | .schedulerGrant _ | .walkStart | .walkAccessEnd _ | .fetchReadEnd _ | .beatReadEnd _ | .beatWriteEnd _ _ => none
  | .statusWriteEnd _ | .saveBegin | .saveWriteEnd _ | .restoreReadEnd _ _ | .busGrant | .busGrantDeasserted => none

end Sys2Proof
end

