-- ==== Sys2Proof/Machine/State.lean ====
section
/-! DEFINITION. The state of the RW47, block by block, and its value after a hard reset. -/

namespace Sys2Proof.Machine

/-! ### Domain Table and Grant Map (01_domains_and_grant_maps.md) -/

/-- A domain's state (R1). -/
inductive DomainState where
  | closed
  | opened
deriving DecidableEq, Repr

/-- A domain record (R1). -/
structure DomainRecord where
  state : DomainState
  /-- Physical address bits 23..7 of the directory. -/
  dirBase : BitVec 17
  pageLimit : BitVec 11
  readOnly : Bool
  trackUsed : Bool
  trackWritten : Bool
deriving DecidableEq, Repr

/-- A domain's 256 grant bits: bit `i` of word `g` is the grant of port `16 g + i` (R4). -/
abbrev GrantMap := Vector Word 16

/-! ### Translation Unit (02_page_tables_and_the_walk.md, 03_the_translation_cache.md) -/

/-- An entry of the translation cache (R39). -/
structure CacheEntry where
  valid : Bool
  referenced : Bool
  domain : DomainId
  vpn : Vpn
  frame : Frame
  writable : Bool
  writtenKnown : Bool
deriving DecidableEq, Repr

/-- The four ways of a set (R39). -/
abbrev CacheSet := Vector CacheEntry 4

/-- The access types under which memory is translated (section 2.3). -/
inductive MemAccess where
  | read
  | write
  | fetch
  | writeback
deriving DecidableEq, Repr

/-- The step a walk is in (R32). -/
inductive WalkerState where
  | idle
  | dirRead
  | pageRead
  | pageUpdate
deriving DecidableEq, Repr

/-- Who asks for a walk (R34). -/
inductive Requester where
  | engine
  | probe
deriving DecidableEq, Repr

/-- What a walk is asked for: a domain, a virtual address and an access type (section 2.3). -/
structure WalkRequest where
  domain : DomainId
  vaddr : VAddr
  access : MemAccess
deriving DecidableEq, Repr

/-- The walker's record and its waiting requests (section 2.5, R32). -/
structure Walker where
  state : WalkerState
  requester : Requester
  request : WalkRequest
  tracking : Bool
  dirBase : BitVec 17
  pageLimit : BitVec 11
  readOnly : Bool
  trackUsed : Bool
  trackWritten : Bool
  /-- The second word of the entry is being read (R22, R23). -/
  second : Bool
  dirPresent : Bool
  /-- Physical address bits 23..8 of the page table. -/
  tableBase : BitVec 16
  /-- The low word of the page entry as read (R19). -/
  pageLow : Word
  frame : Frame
  stale : Bool
  engineWaiting : Option WalkRequest
  probeWaiting : Option WalkRequest
deriving DecidableEq, Repr

/-! ### Channel Contexts (05_channels.md) and fault records (07_faults_and_the_fault_queue.md) -/

/-- The eight states of a channel (R79). -/
inductive ChannelState where
  | idle
  | ready
  | waitReq
  | active
  | halted
  | faulted
  | faultWait
  | done
deriving DecidableEq, Repr

/-- The phases of a channel (R82). -/
inductive Phase where
  | fetch
  | move
  | writeback
deriving DecidableEq, Repr

/-- The writeback code (R69, R70). -/
inductive WritebackCode where
  | complete
  | skipped
deriving DecidableEq, Repr

/-- The last completion code (R80). -/
inductive Completion where
  | none
  | complete
  | aborted
  | cleared
deriving DecidableEq, Repr

/-- The kinds of fault (R121). -/
inductive FaultKind where
  | overLimit
  | dirAbsent
  | pageAbsent
  | writeDenied
  | portDenied
  | descFormat
  | busError
deriving DecidableEq, Repr

/-- The access types of a fault record (R120). -/
inductive FaultAccess where
  | read
  | write
  | fetch
  | writeback
  | portRead
  | portWrite
deriving DecidableEq, Repr

/-- A fault record (R120). A port number stands in bits 7..0 of the address. -/
structure FaultRecord where
  channel : ChannelId
  domain : DomainId
  kind : FaultKind
  access : FaultAccess
  address : BitVec 22
  descriptor : BitVec 22
  phase : Phase
deriving DecidableEq, Repr

/-- A channel context (R78). -/
structure Channel where
  state : ChannelState
  phase : Phase
  domain : DomainId
  priority : Fin 4
  /-- PREQ0 to PREQ7, or none. -/
  line : Option (Fin 8)
  burst : BitVec 5
  descriptor : Long
  control : Byte
  count : Word
  origSource : Long
  origDest : Long
  remaining : Word
  source : Long
  dest : Long
  next : Long
  code : WritebackCode
  pendingHalt : Bool
  pendingAbort : Bool
  held : Option FaultRecord
  completion : Completion
deriving DecidableEq, Repr

/-! ### Transfer Engine (06_scheduling_and_the_transfer_engine.md) -/

/-- The service in progress (R106). -/
inductive Service where
  | none
  | fetch
  | move
  | writeback
deriving DecidableEq, Repr

/-- Whom the Engine serves (R106). -/
inductive Server where
  | channel (c : ChannelId)
  | urgent
deriving DecidableEq, Repr

/-- The step of the beat in progress (R106). -/
inductive BeatStage where
  | check
  | read
  | write
deriving DecidableEq, Repr

/-- The Engine's record (R106). -/
structure Engine where
  service : Service
  server : Server
  beats : BitVec 5
  stage : BeatStage
  readAt : Option PAddr
  writeAt : Option PAddr
  datum : Option Word
  /-- The descriptor words that the fetch in progress has read (R64). -/
  fetched : List Word
deriving DecidableEq, Repr

/-! ### Urgent Controller (08_urgent_service.md, 09_restore_and_the_locked_mode.md) -/

/-- The engine mode (R136). -/
inductive Mode where
  | normal
  | urgentEntry
  | urgentRun
  | urgentHold
  | urgentRestore
  | locked
deriving DecidableEq, Repr

/-- The stage of URGENT_ENTRY (R136). -/
inductive EntryStep where
  | drain
  | save
deriving DecidableEq, Repr

/-- The source of an urgent request (R137, R138). -/
inductive Source where
  | line
  | command
deriving DecidableEq, Repr

/-- The urgent fault code (R149). -/
inductive UrgentFault where
  | none
  | descFormat
  | busError
deriving DecidableEq, Repr

/-- The kind of the lock cause (R162). -/
inductive LockKind where
  | none
  | saveBusError
  | restoreBusError
  | badRelocation
  | badStateCode
  | badTransition
  | badDisposition
  | dispositionNotAllowed
  | badContext
deriving DecidableEq, Repr

/-- The lock cause (R162). -/
structure LockCause where
  kind : LockKind
  place : Byte
deriving DecidableEq, Repr

/-- The context of the urgent channel U (R136). -/
structure UContext where
  phase : Phase
  position : Long
  control : Byte
  remaining : Word
  source : Long
  dest : Long
  next : Long
  code : WritebackCode
deriving DecidableEq, Repr

/-- The Urgent Controller (R136, R157). -/
structure Urgent where
  mode : Mode
  step : EntryStep
  saveProgress : Nat
  latch : Option Source
  entryCause : Option Source
  saveBase : PAddr
  saveStaging : Word
  listBase : PAddr
  listStaging : Word
  u : UContext
  fault : UrgentFault
  lock : LockCause
  /-- The URQ/ detector is ARMED (R137). -/
  armed : Bool
  /-- The words of the image read so far: word `i` holds bytes `2 i` and `2 i + 1` of the buffer (R157). -/
  image : List Word
  readProgress : Nat
deriving DecidableEq, Repr

/-! ### System Bus Interface (10_system_bus_interface_and_signals.md) -/

/-- The SBI's standing on the system bus (R169). -/
inductive Tenure where
  | idle
  | requesting
  | owner
  | releasing
deriving DecidableEq, Repr

/-- The requesters of bus accesses (R169). -/
inductive Slot where
  | walker
  | engine
  | urgent
deriving DecidableEq, Repr

/-- Memory or ports (R171). -/
inductive Space where
  | memory
  | port
deriving DecidableEq, Repr

/-- The width of an access or an element. -/
inductive Width where
  | byte
  | word
deriving DecidableEq, Repr

/-- A bus access (R169, R171): a write carries its data, a byte in bits 7..0. -/
structure Access where
  space : Space
  width : Width
  address : PAddr
  write : Option Word
deriving DecidableEq, Repr

/-- The SBI (R169). -/
structure Sbi where
  tenure : Tenure
  /-- The grant that made the SBI OWNER still stands: SGNT/ has not been deasserted since (R170). -/
  granted : Bool
  inFlight : Option (Slot × Access)
  walker : Option Access
  engine : Option Access
  urgent : Option Access
deriving DecidableEq, Repr

/-! ### Register Window and Command Unit (11_register_window_and_command_unit.md) -/

/-- The result codes (11.2). -/
inductive Result where
  | ok
  | badCommand
  | badChannel
  | badDomain
  | badState
  | domainBusy
  | engineUnavailable
  | badArgument
deriving DecidableEq, Repr

/-- The outcome of a probe (section 3.6). -/
inductive ProbeOutcome where
  | none
  | translated
  | dirAbsent
  | pageAbsent
  | overLimit
  | writeDenied
  | busError
  | aborted
deriving DecidableEq, Repr

/-- The probe result registers PRES, PADL with PADH, and PINF (section 3.6). -/
structure ProbeResult where
  outcome : ProbeOutcome
  address : PAddr
  hit : Bool
  writable : Bool
  writtenKnown : Bool
deriving DecidableEq, Repr

/-- Four argument words: ARG0 to ARG3, or their latched copy (R176). -/
structure Args where
  arg0 : Word
  arg1 : Word
  arg2 : Word
  arg3 : Word
deriving DecidableEq, Repr

/-- The state that the window and the Command Unit own, with the selectors and flags of the other chapters that stand in
the window. -/
structure Window where
  args : Args
  /-- The code of the last command taken (R176). -/
  cmd : Byte
  res : Result
  /-- The latched arguments of the last command taken (R176, R183). -/
  latched : Option Args
  /-- The Command Unit is BUSY (R176). -/
  busy : Bool
  /-- An engine reset is in progress (R179). -/
  resetting : Bool
  tableLocked : Bool
  refused : Bool
  /-- The done flags, bit `n` for channel `n` (R180). -/
  done : BitVec 8
  urgentCause : Bool
  lockCause : Bool
  cmdCause : Bool
  /-- The enables, at the bit positions of ICAUSE (R182). -/
  iena : BitVec 5
  tselDomain : DomainId
  tselGroup : Fin 16
  csel : ChannelId
  probe : ProbeResult
deriving DecidableEq, Repr

/-- The input pins that the part remembers or is held by. -/
structure Pins where
  /-- RST/ is asserted (R174, R175). -/
  rst : Bool
  /-- URQ/ was last seen high (R137). -/
  urqHigh : Bool
  /-- The levels of PREQ7..PREQ0 as last sampled (R84). -/
  preq : BitVec 8
deriving DecidableEq, Repr

/-- The whole part, and the queue of the commands that wait for it. -/
structure State where
  domains : Vector DomainRecord 16
  grants : Vector GrantMap 16
  cache : Vector CacheSet 16
  walker : Walker
  channels : Vector Channel 8
  pointers : Vector ChannelId 4
  engine : Engine
  queue : List FaultRecord
  urgent : Urgent
  sbi : Sbi
  window : Window
  pins : Pins
  /-- First in, first out. -/
  pending : List Instr
deriving DecidableEq, Repr

/-- The reasons for which a step of the model stops in a fault: none. The specification gives every command of the table an
effect; its own faults are records in the state. -/
inductive Fault where
deriving DecidableEq, Repr

/-- The reasons for which a step of the model is refused. -/
inductive Refusal where
  /-- Raised by an arm of `exec` whose command has no meaning yet; no arm is left so. Safe: the run stops. -/
  | notModelled (mnemonic : String)
deriving DecidableEq, Repr

/-! ### Reset values -/

/-- R1, hard reset. -/
def DomainRecord.reset : DomainRecord :=
  { state := .closed, dirBase := 0, pageLimit := 0, readOnly := false, trackUsed := false, trackWritten := false }

/-- R59; the fields of an invalid entry play no part (R39). DESIGN CHOICE 0, unsafe: log entry 10. -/
def CacheEntry.reset : CacheEntry :=
  { valid := false, referenced := false, domain := 0, vpn := 0, frame := 0, writable := false, writtenKnown := false }

/-- R38; the other fields play no part while the walker is IDLE. DESIGN CHOICE, unsafe: log entry 10. -/
def Walker.reset : Walker :=
  { state := .idle, requester := .engine, request := { domain := 0, vaddr := 0, access := .read }, tracking := false,
    dirBase := 0, pageLimit := 0, readOnly := false, trackUsed := false, trackWritten := false, second := false,
    dirPresent := false, tableBase := 0, pageLow := 0, frame := 0, stale := false,
    engineWaiting := none, probeWaiting := none }

/-- R100: "The state is IDLE. Every other field is 0", the writeback code COMPLETE, no held record, completion NONE. -/
def Channel.reset : Channel :=
  { state := .idle, phase := .fetch, domain := 0, priority := 0, line := some 0, burst := 0, descriptor := 0,
    control := 0, count := 0, origSource := 0, origDest := 0, remaining := 0, source := 0, dest := 0, next := 0,
    code := .complete, pendingHalt := false, pendingAbort := false, held := none, completion := .none }

/-- The free Engine (R106): "When it is free, only the first field has meaning". The other fields are a DESIGN CHOICE,
unsafe: log entry 10. -/
def Engine.free : Engine :=
  { service := .none, server := .channel 0, beats := 0, stage := .check, readAt := none, writeAt := none,
    datum := none, fetched := [] }

/-- U's context after either reset (R136). -/
def UContext.reset : UContext :=
  { phase := .fetch, position := 0, control := 0, remaining := 0, source := 0, dest := 0, next := 0, code := .complete }

/-- The Urgent Controller after a hard reset (R136, R157). -/
def Urgent.reset : Urgent :=
  { mode := .normal, step := .drain, saveProgress := 0, latch := none, entryCause := none,
    saveBase := Config.resetSaveBase, saveStaging := Config.resetSaveStaging, listBase := 0, listStaging := 0,
    u := UContext.reset, fault := .none, lock := { kind := .none, place := 0 }, armed := false,
    image := [], readProgress := 0 }

/-- The SBI after a hard reset (R169, R174). -/
def Sbi.reset : Sbi :=
  { tenure := .releasing, granted := false, inFlight := none, walker := none, engine := none, urgent := none }

/-- The probe result registers after a hard reset (R59). -/
def ProbeResult.reset : ProbeResult :=
  { outcome := .none, address := 0, hit := false, writable := false, writtenKnown := false }

/-- The window and the Command Unit after a hard reset (R183, R5, R81). -/
def Window.reset : Window :=
  { args := { arg0 := 0, arg1 := 0, arg2 := 0, arg3 := 0 }, cmd := 0, res := .ok, latched := none, busy := false,
    resetting := false, tableLocked := false, refused := false, done := 0, urgentCause := false, lockCause := false,
    cmdCause := false, iena := 0, tselDomain := 0, tselGroup := 0, csel := 0, probe := ProbeResult.reset }

/-- The pins after a hard reset, RST/ released. What the part has seen of URQ/ and of PREQ0 to PREQ7 is a DESIGN CHOICE,
safe: log entries 5 and 6. -/
def Pins.reset : Pins := { rst := false, urqHigh := false, preq := 0 }

/-- The part right after a hard reset, with RST/ released and no command waiting. -/
def State.reset : State :=
  { domains := Vector.replicate 16 DomainRecord.reset,
    grants := Vector.replicate 16 (Vector.replicate 16 0),
    cache := Vector.replicate 16 (Vector.replicate 4 CacheEntry.reset),
    walker := Walker.reset,
    channels := Vector.replicate 8 Channel.reset,
    pointers := Vector.replicate 4 7,
    engine := Engine.free,
    queue := [],
    urgent := Urgent.reset,
    sbi := Sbi.reset,
    window := Window.reset,
    pins := Pins.reset,
    pending := [] }

end Sys2Proof.Machine
end

