-- ==== Sys2Proof/Machine/Operands.lean ====
section
/-! DEFINITION. Pure readings of the data that commands, memory and registers carry: address fields, command arguments, the
control byte, descriptors and their checks, the codes of the registers, the records of the save image. -/

namespace Sys2Proof.Machine

/-! ### Bit fields -/

/-- One bit. -/
def bit (b : Bool) : BitVec 1 := BitVec.ofBool b

/-- The low byte of a word. -/
def lowByte (w : Word) : Byte := w.extractLsb' 0 8

/-- The high byte of a word. -/
def highByte (w : Word) : Byte := w.extractLsb' 8 8

/-- The low word of a long. -/
def lowWord (l : Long) : Word := l.extractLsb' 0 16

/-- The high word of a long. -/
def highWord (l : Long) : Word := l.extractLsb' 16 16

/-- A long as the virtual address it carries, its low 22 bits (R60, R114). -/
def virtualOf (l : Long) : VAddr := l.extractLsb' 0 22

/-- A long as the physical address it carries, its low 24 bits. -/
def physicalOf (l : Long) : PAddr := l.extractLsb' 0 24

/-- A long as the port number it carries, bits 7..0 (section 4.1). -/
def portOf (l : Long) : Port := l.extractLsb' 0 8

/-! ### Addresses (R17 to R19) -/

/-- The virtual page number, bits 21..11 (R17). -/
def vpnOf (v : VAddr) : Vpn := v.extractLsb' 11 11

/-- The byte within the page, bits 10..0 (R17). -/
def offsetOf (v : VAddr) : BitVec 11 := v.extractLsb' 0 11

/-- The frame multiplied by 800H plus the offset (R17). -/
def physical (f : Frame) (v : VAddr) : PAddr := f ++ offsetOf v

/-- The address of the low word of the directory entry: the directory base multiplied by 128 plus 4 times the directory
index, bits 21..17 (R18). -/
def dirEntryAddr (dirBase : BitVec 17) (v : VAddr) : PAddr := dirBase ++ v.extractLsb' 17 5 ++ 0#2

/-- The address of the low word of the page entry: the table base multiplied by 256 plus 4 times the table index, bits
16..11 (R19). -/
def pageEntryAddr (tableBase : BitVec 16) (v : VAddr) : PAddr := tableBase ++ v.extractLsb' 11 6 ++ 0#2

/-- The cache set of a page: the VPN modulo 16 (R39). -/
def setOf (p : Vpn) : Fin 16 := Fin.ofNat 16 p.toNat

/-- For the checks, fetch is a read and writeback is a write (section 2.3). -/
def MemAccess.writes : MemAccess → Bool
  | .write | .writeback => true
  | .read | .fetch => false

/-- The access type of a fault record of a memory access (R120). -/
def MemAccess.fault : MemAccess → FaultAccess
  | .read => .read
  | .write => .write
  | .fetch => .fetch
  | .writeback => .writeback

/-! ### Command arguments -/

/-- ARG0 as a domain number at most 15 (R10, R46, R55). -/
def Args.domain (a : Args) : Option DomainId :=
  if h : a.arg0.toNat < 16 then some ⟨a.arg0.toNat, h⟩ else none

/-- ARG0 as a channel number at most 7 (R86). -/
def Args.channel (a : Args) : Option ChannelId :=
  if h : a.arg0.toNat < 8 then some ⟨a.arg0.toNat, h⟩ else none

/-- A virtual address: bits 15..0 from ARG1, bits 21..16 from ARG2 bits 5..0 (R46). -/
def Args.vaddr (a : Args) : VAddr := a.arg2.extractLsb' 0 6 ++ a.arg1

/-- ARG2 bits 15..6 are all 0 (R46, R55). -/
def Args.vaddrOk (a : Args) : Bool := a.arg2.extractLsb' 6 10 == 0

/-- The access code of PROBE in ARG3 (R55). -/
def Args.probeAccess (a : Args) : Option MemAccess :=
  match a.arg3.toNat with
  | 0 => some .read
  | 1 => some .write
  | 2 => some .fetch
  | 3 => some .writeback
  | _ => none

/-- CH_START: ARG1 bits 7..0 as a domain number at most 15 (R87). -/
def Args.startDomain (a : Args) : Option DomainId :=
  let d := (lowByte a.arg1).toNat
  if h : d < 16 then some ⟨d, h⟩ else none

/-- CH_START: ARG1 bits 9..8 (R87). -/
def Args.startPriority (a : Args) : Fin 4 := Fin.ofNat 4 (a.arg1.extractLsb' 8 2).toNat

/-- The pacing line of a four-bit field: 0 to 7, or 15 for none; other values name no line (R87, R161). -/
def lineOfCode (x : BitVec 4) : Option (Option (Fin 8)) :=
  if h : x.toNat < 8 then some (some ⟨x.toNat, h⟩) else if x = 15#4 then some none else none

/-- CH_START: the line field, ARG1 bits 15..12 (R87). -/
def Args.startLine (a : Args) : Option (Option (Fin 8)) := lineOfCode (a.arg1.extractLsb' 12 4)

/-- CH_START: the burst, ARG3 bits 15..8 (R87). -/
def Args.startBurst (a : Args) : Byte := highByte a.arg3

/-- CH_START: the first descriptor address, bits 15..0 from ARG2 and 21..16 from ARG3 bits 5..0 (R87). -/
def Args.startDescriptor (a : Args) : VAddr := a.arg3.extractLsb' 0 6 ++ a.arg2

/-- Check 5 of R87: ARG1 bits 11..10 are 0, the line field is 0 to 7 or 15, the burst is 1 to 16, ARG3 bits 7..6 are 0, and
the first descriptor address is a multiple of 16. -/
def Args.startOk (a : Args) : Bool :=
  a.arg1.extractLsb' 10 2 == 0 && a.startLine.isSome
    && 1 ≤ a.startBurst.toNat && a.startBurst.toNat ≤ 16
    && a.arg3.extractLsb' 6 2 == 0 && a.startDescriptor.toNat % 16 == 0

/-! ### The control byte and the element (section 4.1, R62, R63) -/

/-- The kinds of element (R62). -/
inductive Kind where
  | copy
  | ingest
  | emit
  | fill
deriving DecidableEq, Repr

/-- Control bits 1..0 (section 4.1). -/
def kindOf (control : Byte) : Kind :=
  match (control.extractLsb' 0 2).toNat with
  | 0 => .copy
  | 1 => .ingest
  | 2 => .emit
  | _ => .fill

/-- Control bit 2 (section 4.1). -/
def widthOf (control : Byte) : Width := if control.getLsbD 2 then .word else .byte

/-- Control bit 3. -/
def isEnd (control : Byte) : Bool := control.getLsbD 3

/-- Control bit 4. -/
def isNotify (control : Byte) : Bool := control.getLsbD 4

/-- Control bit 5. -/
def isHold (control : Byte) : Bool := control.getLsbD 5

/-- NOTIFY or END: the advance sets the done flag (R73). -/
def marksDone (control : Byte) : Bool := isNotify control || isEnd control

/-- The width in bytes (R62). -/
def Width.bytes : Width → Nat
  | .byte => 1
  | .word => 2

/-- What a beat works from: the loaded element of a channel or of U, with the current sides. -/
structure Element where
  control : Byte
  remaining : Word
  source : Long
  dest : Long
deriving DecidableEq, Repr

/-- The element of a channel. -/
def Channel.element (c : Channel) : Element :=
  { control := c.control, remaining := c.remaining, source := c.source, dest := c.dest }

/-- The element of U. -/
def UContext.element (u : UContext) : Element :=
  { control := u.control, remaining := u.remaining, source := u.source, dest := u.dest }

/-- The element after a beat whose write has completed: remaining decreases by 1 and the memory sides advance by the width
(R62, R113). -/
def Element.advance (e : Element) : Element :=
  let step := BitVec.ofNat 32 (widthOf e.control).bytes
  let e := { e with remaining := e.remaining - 1 }
  match kindOf e.control with
  | .copy => { e with source := e.source + step, dest := e.dest + step }
  | .ingest => { e with dest := e.dest + step }
  | .emit => { e with source := e.source + step }
  | .fill => { e with dest := e.dest + step }

/-- The pattern of a FILL beat: bits 7..0 of the source for byte width, bits 15..0 for word width (R63, R112). -/
def Element.pattern (e : Element) : Word :=
  match widthOf e.control with
  | .byte => (lowByte (lowWord e.source)).setWidth 16
  | .word => lowWord e.source

/-- The element is paced (R84). -/
def Element.paced (e : Element) : Bool :=
  match kindOf e.control with
  | .ingest | .emit => true
  | .copy | .fill => false

/-! ### Descriptors (R60, R61, R65, R66) -/

/-- The fields kept from the sixteen bytes of a descriptor (R61). -/
structure Descriptor where
  control : Byte
  count : Word
  source : Long
  dest : Long
  next : Long
deriving DecidableEq, Repr

/-- Word `i` of a list of words. -/
def wordAt (ws : List Word) (i : Nat) : Word := ws.getD i 0

/-- The long whose low word is word `i`; longs are little-endian. -/
def longAt (ws : List Word) (i : Nat) : Long := wordAt ws (i + 1) ++ wordAt ws i

/-- The descriptor that eight words hold; the status byte is discarded (R61). -/
def descriptorOf (ws : List Word) : Descriptor :=
  { control := lowByte (wordAt ws 0), count := wordAt ws 1, source := longAt ws 2, dest := longAt ws 4,
    next := longAt ws 6 }

/-- The top of the space of a served party: 3FFFFFH for a normal channel, FFFFFFH for U (R66, R75). -/
def spaceTop : Server → Nat
  | .channel _ => 0x3FFFFF
  | .urgent => 0xFFFFFF

/-- A descriptor address, or the next address of a descriptor, is a multiple of 16 and at most 3FFFF0H or FFFFF0H (R60,
R65, R75). -/
def descAddrOk (w : Server) (a : Long) : Bool := a.toNat % 16 == 0 && a.toNat + 15 ≤ spaceTop w

/-- The port field of INGEST and EMIT has bits 31..8 clear (R65). -/
def portFieldOk (port : Long) : Bool := port.toNat ≤ 0xFF

/-- A word port is even (R65). -/
def wordPortOk (w : Width) (port : Long) : Bool := w == .byte || !port.getLsbD 0

/-- A word memory side is even (R65). -/
def wordMemoryOk (w : Width) (a : Long) : Bool := w == .byte || !a.getLsbD 0

/-- The range of a memory side, `a` to `a + n * w - 1`, does not pass the top, and `a` is not above it (R66). -/
def rangeOk (top : Nat) (w : Width) (a : Long) (n : Word) : Bool :=
  a.toNat ≤ top && a.toNat + n.toNat * w.bytes ≤ top + 1

/-- The checks of a memory side (R65, R66). -/
def memorySideOk (top : Nat) (w : Width) (a : Long) (n : Word) : Bool := wordMemoryOk w a && rangeOk top w a n

/-- The checks of a port side (R65). -/
def portSideOk (w : Width) (port : Long) : Bool := portFieldOk port && wordPortOk w port

/-- The checks of R65 for port field, word port, word memory and memory range, over `e.remaining` beats. -/
def Element.sidesOk (top : Nat) (e : Element) : Bool :=
  let w := widthOf e.control
  match kindOf e.control with
  | .copy => memorySideOk top w e.source e.remaining && memorySideOk top w e.dest e.remaining
  | .ingest => portSideOk w e.source && memorySideOk top w e.dest e.remaining
  | .emit => memorySideOk top w e.source e.remaining && portSideOk w e.dest
  | .fill => memorySideOk top w e.dest e.remaining

/-- The element of a descriptor, with every beat still to make. -/
def Descriptor.element (d : Descriptor) : Element :=
  { control := d.control, remaining := d.count, source := d.source, dest := d.dest }

/-- The format checks of R65; HOLD is checked for normal channels (R75). -/
def Descriptor.formatOk (w : Server) (d : Descriptor) : Bool :=
  d.control.extractLsb' 6 2 == 0
    && (w == .urgent || !isHold d.control)
    && d.count != 0
    && d.element.sidesOk (spaceTop w)
    && (isEnd d.control || descAddrOk w d.next)

/-! ### Codes of the registers and of the save image -/

/-- R81, R143. -/
def ChannelState.bits : ChannelState → BitVec 3
  | .idle => 0
  | .ready => 1
  | .waitReq => 2
  | .active => 3
  | .halted => 4
  | .faulted => 5
  | .faultWait => 6
  | .done => 7

/-- R81, R120, R143. -/
def Phase.bits : Phase → BitVec 2
  | .fetch => 0
  | .move => 1
  | .writeback => 2

/-- R70, R81, R143. -/
def WritebackCode.bits : WritebackCode → BitVec 2
  | .complete => 1
  | .skipped => 2

/-- R81. -/
def Completion.bits : Completion → BitVec 2
  | .none => 0
  | .complete => 1
  | .aborted => 2
  | .cleared => 3

/-- R120. -/
def FaultKind.bits : FaultKind → BitVec 4
  | .overLimit => 1
  | .dirAbsent => 2
  | .pageAbsent => 3
  | .writeDenied => 4
  | .portDenied => 5
  | .descFormat => 6
  | .busError => 7

/-- R120. -/
def FaultAccess.bits : FaultAccess → BitVec 3
  | .read => 0
  | .write => 1
  | .fetch => 2
  | .writeback => 3
  | .portRead => 4
  | .portWrite => 5

/-- R150. -/
def Mode.bits : Mode → BitVec 3
  | .normal => 0
  | .urgentEntry => 1
  | .urgentRun => 2
  | .urgentHold => 3
  | .urgentRestore => 4
  | .locked => 5

/-- R150: the entry cause; the header of the image carries the same code (R143). -/
def causeBits : Option Source → BitVec 2
  | none => 0
  | some .line => 1
  | some .command => 2

/-- R150: the latch source, 0 when the latch is clear. -/
def latchSourceBit : Option Source → BitVec 1
  | some .command => 1
  | _ => 0

/-- R150. -/
def UrgentFault.bits : UrgentFault → BitVec 2
  | .none => 0
  | .descFormat => 1
  | .busError => 2

/-- R162. -/
def LockKind.bits : LockKind → BitVec 4
  | .none => 0
  | .saveBusError => 1
  | .restoreBusError => 2
  | .badRelocation => 3
  | .badStateCode => 4
  | .badTransition => 5
  | .badDisposition => 6
  | .dispositionNotAllowed => 7
  | .badContext => 8

/-- The result codes (11.2). -/
def Result.bits : Result → BitVec 4
  | .ok => 0
  | .badCommand => 1
  | .badChannel => 2
  | .badDomain => 3
  | .badState => 4
  | .domainBusy => 5
  | .engineUnavailable => 6
  | .badArgument => 7

/-- The outcome codes of PRES (section 3.6). -/
def ProbeOutcome.bits : ProbeOutcome → BitVec 4
  | .none => 0
  | .translated => 1
  | .dirAbsent => 2
  | .pageAbsent => 3
  | .overLimit => 4
  | .writeDenied => 5
  | .busError => 6
  | .aborted => 7

/-- The pacing line, 15 for none (R81, R143). -/
def lineBits : Option (Fin 8) → BitVec 4
  | some n => BitVec.ofNat 4 n.val
  | none => 15

/-! ### The save image (R143, R161, R163) -/

/-- The two words of a long, low word first. -/
def wordsOfLong (l : Long) : List Word := [lowWord l, highWord l]

/-- The sixteen words of a channel record (R143). -/
def Channel.record (c : Channel) : List Word :=
  [0#8 ++ (c.state.bits.setWidth 8),
   (lineBits c.line ++ 0#2 ++ BitVec.ofNat 2 c.priority.val) ++ BitVec.ofNat 8 c.domain.val,
   c.burst.setWidth 16,
   0#8 ++ c.control,
   c.count,
   c.remaining]
  ++ wordsOfLong c.descriptor ++ wordsOfLong c.source ++ wordsOfLong c.dest ++ wordsOfLong c.next
  ++ [c.code.bits.setWidth 8 ++ c.phase.bits.setWidth 8, 0#16]

/-- The sixteen words of the header (R143). -/
def headerOf (cause : Option Source) (base : PAddr) : List Word :=
  [Config.imageRevision, (causeBits cause).setWidth 16]
  ++ wordsOfLong (base.setWidth 32) ++ List.replicate 12 0#16

/-- A channel record as the image buffer holds it (R143). -/
structure ImageRecord where
  state : Byte
  disposition : Byte
  domain : Byte
  priorityLine : Byte
  burst : Word
  control : Word
  count : Word
  remaining : Word
  descriptor : Long
  source : Long
  dest : Long
  next : Long
  phase : Byte
  code : Byte
deriving DecidableEq, Repr

/-- The record of channel `n` in the image: it lies at byte 32 + 32 n (R143). -/
def imageRecord (ws : List Word) (n : ChannelId) : ImageRecord :=
  let b := 16 + 16 * n.val
  { state := lowByte (wordAt ws b), disposition := highByte (wordAt ws b),
    domain := lowByte (wordAt ws (b + 1)), priorityLine := highByte (wordAt ws (b + 1)),
    burst := wordAt ws (b + 2), control := wordAt ws (b + 3), count := wordAt ws (b + 4),
    remaining := wordAt ws (b + 5), descriptor := longAt ws (b + 6), source := longAt ws (b + 8),
    dest := longAt ws (b + 10), next := longAt ws (b + 12),
    phase := lowByte (wordAt ws (b + 14)), code := highByte (wordAt ws (b + 14)) }

/-- The relocation slot: the long at byte 4 of the header (R143). -/
def relocationOf (ws : List Word) : Long := longAt ws 2

/-- The state codes that a record may carry; 3 is none of them (R160, check 2). -/
def stateOfCode (b : Byte) : Option ChannelState :=
  match b.toNat with
  | 0 => some .idle
  | 1 => some .ready
  | 2 => some .waitReq
  | 4 => some .halted
  | 5 => some .faulted
  | 6 => some .faultWait
  | 7 => some .done
  | _ => none

/-- A phase byte (R143). -/
def phaseOfCode (b : Byte) : Option Phase :=
  match b.toNat with
  | 0 => some .fetch
  | 1 => some .move
  | 2 => some .writeback
  | _ => none

/-- A writeback-code byte (R143). -/
def wbOfCode (b : Byte) : Option WritebackCode :=
  match b.toNat with
  | 1 => some .complete
  | 2 => some .skipped
  | _ => none

/-- A domain byte at most 15 (R161). -/
def domainOfCode (b : Byte) : Option DomainId := if h : b.toNat < 16 then some ⟨b.toNat, h⟩ else none

/-- The line field of a record: bits 7..4 of the priority byte (R143). -/
def ImageRecord.line (r : ImageRecord) : Option (Option (Fin 8)) := lineOfCode (r.priorityLine.extractLsb' 4 4)

/-- The priority of a record: bits 1..0 of the priority byte (R163). -/
def ImageRecord.priority (r : ImageRecord) : Fin 4 := Fin.ofNat 4 (r.priorityLine.extractLsb' 0 2).toNat

/-- The element of a record, with remaining in place of the count (R161). -/
def ImageRecord.element (r : ImageRecord) : Element :=
  { control := lowByte r.control, remaining := r.remaining, source := r.source, dest := r.dest }

end Sys2Proof.Machine
end

