-- ==== Sys2Proof/Machine/Flags.lean ====
section
/-! DEFINITION. The interrupt causes, INT/, the done flags and the sticky flags of the window. -/

namespace Sys2Proof.Machine

/-- CHDONE stands while any done flag is set (R181). -/
def State.chdone (s : State) : Bool := s.window.done != 0

/-- FAULT stands while the queue holds a record (R131). -/
def State.faultCause (s : State) : Bool := s.queue.length != 0

/-- The five causes at the bits of ICAUSE (R181). -/
def State.causes (s : State) : BitVec 5 :=
  bit s.window.cmdCause ++ bit s.window.lockCause ++ bit s.window.urgentCause ++ bit s.faultCause ++ bit s.chdone

/-- INT/ is asserted while at least one cause is set whose enable is 1 (R182). -/
def State.intAsserted (s : State) : Bool := s.causes &&& s.window.iena != 0

/-- The done flag of one channel, as a mask of DONE (R180). -/
def doneMask (c : ChannelId) : BitVec 8 := 1#8 <<< c.val

/-- The done flag of channel `c` is set (R180). -/
def State.doneFlag (s : State) (c : ChannelId) : Bool := s.window.done.getLsbD c.val

/-- Sets the done flag of `c` (R73). -/
def State.setDone (s : State) (c : ChannelId) : State :=
  { s with window := { s.window with done := s.window.done ||| doneMask c } }

/-- Clears the done flags whose bits are 1 in `mask` (R180). -/
def State.clearDone (s : State) (mask : BitVec 8) : State :=
  { s with window := { s.window with done := s.window.done &&& ~~~mask } }

/-- Sets the done flag of `c` where the control has NOTIFY or END (R73). -/
def State.markDone (s : State) (c : ChannelId) (control : Byte) : State :=
  if marksDone control then s.setDone c else s

/-- Raises the URGENT cause (R181). -/
def State.raiseUrgent (s : State) : State := { s with window := { s.window with urgentCause := true } }

/-- Raises the LOCK cause (R181). -/
def State.raiseLock (s : State) : State := { s with window := { s.window with lockCause := true } }

/-- Sets TABLE_LOCKED (R9). -/
def State.lockTable (s : State) : State := { s with window := { s.window with tableLocked := true } }

/-- Sets REFUSED (R177). -/
def State.refuseWrite (s : State) : State := { s with window := { s.window with refused := true } }

end Sys2Proof.Machine
end

