-- ==== Sys2Proof/Machine/Ops.lean ====
section
/-! DEFINITION. The shared operations over the blocks: channels, the domain table and the grant map, the translation cache,
the SBI, the fault queue, and the Command Unit's taking of a command. -/

namespace Sys2Proof.Machine

/-- What a step does while RST/ is not asserted; while it is, the part takes nothing (R137, R174, R175). -/
def State.unlessReset (s t : State) : State := if s.pins.rst then s else t

/-- Changes every listed entry of a table, each from its own content. -/
def updateEach {α : Type} {n : Nat} (l : List (Fin n)) (f : Fin n → α → α) (v : Vector α n) : Vector α n :=
  l.foldl (fun (u : Vector α n) (k : Fin n) => u.set k (f k u[k])) v

/-! ### Channels -/

/-- The eight channels, lowest number first. -/
def allChannels : List ChannelId := [0, 1, 2, 3, 4, 5, 6, 7]

/-- Replaces the context of channel `c`. -/
def State.setChannel (s : State) (c : ChannelId) (x : Channel) : State := { s with channels := s.channels.set c x }

/-- Changes the context of channel `c`. -/
def State.modChannel (s : State) (c : ChannelId) (f : Channel → Channel) : State := s.setChannel c (f s.channels[c])

/-- Changes every channel, each from its own context. -/
def State.mapChannels (s : State) (f : ChannelId → Channel → Channel) : State :=
  { s with channels := updateEach allChannels f s.channels }

/-- The abort of R93: IDLE, ABORTED, pending flags 0, held record discarded, all else kept. -/
def Channel.abort (x : Channel) : Channel :=
  { x with state := .idle, completion := .aborted, pendingHalt := false, pendingAbort := false, held := none }

/-- The context fields that the advance of R72 changes. With END clear the phase becomes FETCH at the next address and the
channel would be READY; with END set it is DONE with completion code COMPLETE. -/
def Channel.advance (x : Channel) : Channel :=
  if isEnd x.control then { x with state := .done, completion := .complete }
  else { x with state := .ready, phase := .fetch, descriptor := x.next }

/-- The context that the load of R67 gives. -/
def Channel.load (x : Channel) (d : Descriptor) : Channel :=
  { x with control := d.control, count := d.count, origSource := d.source, source := d.source, origDest := d.dest,
           dest := d.dest, remaining := d.count, next := d.next, code := .complete, phase := .move }

/-- The context that the load gives U (R75). -/
def UContext.load (x : UContext) (d : Descriptor) : UContext :=
  { x with control := d.control, source := d.source, dest := d.dest, remaining := d.count, next := d.next,
           code := .complete, phase := .move }

/-- A WAIT_REQ channel whose bound line is high in `lines` becomes READY (R85). -/
def Channel.wake (lines : BitVec 8) (x : Channel) : Channel :=
  match x.state, x.line with
  | .waitReq, some n => if lines.getLsbD n.val then { x with state := .ready } else x
  | _, _ => x

/-- R85: in NORMAL with no engine reset in progress, the WAIT_REQ channels whose lines are high in `lines` become READY. -/
def State.wakeLines (s : State) (lines : BitVec 8) : State :=
  if s.urgent.mode = .normal ∧ ¬ s.window.resetting then s.mapChannels (fun _ x => x.wake lines) else s

/-- The levels of PREQ7..PREQ0 are sampled (R84). That a sample alone wakes no WAIT_REQ channel, which waits for the row
LINE_ASSERTED or the end of a restore, is the model's choice (log entry 5). -/
def State.sampleLines (s : State) (preq : BitVec 8) : State := { s with pins := { s.pins with preq := preq } }

/-! ### Domain table and grant map -/

/-- Replaces the record of domain `d`. -/
def State.setDomain (s : State) (d : DomainId) (r : DomainRecord) : State := { s with domains := s.domains.set d r }

/-- The port group of port `p`: group `g` covers ports `16 g` to `16 g + 15` (R4). -/
def portGroup (p : Port) : Fin 16 := Fin.ofNat 16 (p.toNat / 16)

/-- The grant bit of port `p` in domain `d` (R4). -/
def State.portGranted (s : State) (d : DomainId) (p : Port) : Bool :=
  s.grants[d][portGroup p].getLsbD (p.toNat % 16)

/-- May domain `d` make an access of width `w` at port `p`: a word access covers `p` and `p + 1` (R4). -/
def State.accessGranted (s : State) (d : DomainId) (w : Width) (p : Port) : Bool :=
  match w with
  | .byte => s.portGranted d p
  | .word => s.portGranted d p && s.portGranted d (p + 1)

/-! ### Translation cache (R39 to R53) -/

/-- The four ways, lowest number first. -/
def allWays : List (Fin 4) := [0, 1, 2, 3]

/-- The sixteen sets. -/
def allSets : List (Fin 16) := [0, 1, 2, 3, 4, 5, 6, 7, 8, 9, 10, 11, 12, 13, 14, 15]

/-- The entry holds the translation of page `p` of domain `d` (R40). -/
def CacheEntry.hits (e : CacheEntry) (d : DomainId) (p : Vpn) : Bool := e.valid && e.domain == d && e.vpn == p

/-- The way of a set that hits (R40). -/
def hitWay (t : CacheSet) (d : DomainId) (p : Vpn) : Option (Fin 4) := allWays.find? (fun w => t[w].hits d p)

/-- Sets the referenced field of way `w`. -/
def markWay (t : CacheSet) (w : Fin 4) : CacheSet := t.set w { t[w] with referenced := true }

/-- All four referenced fields of the set are 1. -/
def allMarked (t : CacheSet) : Bool := allWays.all (fun i => t[i].referenced)

/-- Clears the referenced fields of the ways other than `w`. -/
def unmarkOthers (t : CacheSet) (w : Fin 4) : CacheSet :=
  updateEach allWays (fun i e => if i = w then e else { e with referenced := false }) t

/-- Sets the referenced field of way `w`; if all four are then 1, the other three are cleared at once (R44). -/
def markReferenced (t : CacheSet) (w : Fin 4) : CacheSet :=
  if allMarked (markWay t w) then unmarkOthers (markWay t w) w else markWay t w

/-- The way that an install takes: the way that holds the page, else the lowest invalid way, else the lowest way whose
referenced field is 0 (R43). By law 3 one of them exists. -/
def installWay (t : CacheSet) (d : DomainId) (p : Vpn) : Fin 4 :=
  match hitWay t d p with
  | some w => w
  | none =>
    match allWays.find? (fun w => !t[w].valid) with
    | some w => w
    | none => (allWays.find? (fun w => !t[w].referenced)).getD 0

/-- What a walk delivers (R27). -/
structure Translation where
  domain : DomainId
  vpn : Vpn
  frame : Frame
  writable : Bool
  writtenKnown : Bool
deriving DecidableEq, Repr

/-- Replaces a set of the cache. -/
def State.setCacheSet (s : State) (i : Fin 16) (t : CacheSet) : State := { s with cache := s.cache.set i t }

/-- Marks way `w` of set `i` as referenced (R44). -/
def State.touch (s : State) (i : Fin 16) (w : Fin 4) : State := s.setCacheSet i (markReferenced s.cache[i] w)

/-- The set after the install of a translation (R43). -/
def installInto (t : CacheSet) (x : Translation) : CacheSet :=
  let w := installWay t x.domain x.vpn
  markReferenced
    (t.set w { valid := true, referenced := t[w].referenced, domain := x.domain, vpn := x.vpn, frame := x.frame,
               writable := x.writable, writtenKnown := x.writtenKnown }) w

/-- The install of a walk's translation (R43). -/
def State.install (s : State) (x : Translation) : State :=
  s.setCacheSet (setOf x.vpn) (installInto s.cache[setOf x.vpn] x)

/-- Clears valid and referenced together (section 3.4). -/
def CacheEntry.invalidate (e : CacheEntry) : CacheEntry := { e with valid := false, referenced := false }

/-- Invalidates the entries of a set that match. -/
def invalidateSet (t : CacheSet) (m : CacheEntry → Bool) : CacheSet :=
  updateEach allWays (fun _ e => if m e then e.invalidate else e) t

/-- Invalidates the matching entries of every set. -/
def State.invalidate (s : State) (m : CacheEntry → Bool) : State :=
  { s with cache := updateEach allSets (fun _ t => invalidateSet t m) s.cache }

/-- A walk is in progress (R51). -/
def Walker.busy (w : Walker) : Bool := w.state != .idle

/-- Marks the walk in progress stale where the invalidation matches it (R51). The mark is only held here: an access of the walk
that is still pending is carried to its end like one in flight, which is the model's choice (log entry 20). -/
def State.markStale (s : State) (m : WalkRequest → Bool) : State :=
  if s.walker.busy && m s.walker.request then { s with walker := { s.walker with stale := true } } else s

/-- The effect of INV_ALL (R47). -/
def State.invalidateAll (s : State) : State := (s.invalidate (fun _ => true)).markStale (fun _ => true)

/-- The effect of INV_DOMAIN (R48), which DOM_CLOSE makes too (R12). -/
def State.invalidateDomain (s : State) (d : DomainId) : State :=
  (s.invalidate (fun e => e.valid && e.domain == d)).markStale (fun r => r.domain == d)

/-- The effect of INV_PAGE (R49). -/
def State.invalidatePage (s : State) (d : DomainId) (v : VAddr) : State :=
  let p := vpnOf v
  (s.setCacheSet (setOf p) (invalidateSet s.cache[setOf p] (fun e => e.hits d p))).markStale
    (fun r => r.domain == d && vpnOf r.vaddr == p)

/-! ### System Bus Interface (R169 to R174) -/

/-- The pending slot of a requester. -/
def Sbi.slot (b : Sbi) : Slot → Option Access
  | .walker => b.walker
  | .engine => b.engine
  | .urgent => b.urgent

/-- Puts an access into a slot, or empties it. -/
def Sbi.setSlot (b : Sbi) (r : Slot) (a : Option Access) : Sbi :=
  match r with
  | .walker => { b with walker := a }
  | .engine => { b with engine := a }
  | .urgent => { b with urgent := a }

/-- The slot whose access begins next: WALKER, else ENGINE, else URGENT (R173). -/
def Sbi.next (b : Sbi) : Option (Slot × Access) :=
  match b.walker, b.engine, b.urgent with
  | some a, _, _ => some (.walker, a)
  | none, some a, _ => some (.engine, a)
  | none, none, some a => some (.urgent, a)
  | none, none, none => none

/-- Some access is pending. -/
def Sbi.anyPending (b : Sbi) : Bool := b.next.isSome

/-- Begins the next pending access, if there is one (R173). -/
def Sbi.begin (b : Sbi) : Sbi :=
  match b.next with
  | some (r, a) => { b.setSlot r none with inFlight := some (r, a) }
  | none => b

/-- An access becomes pending: IDLE becomes REQUESTING (R170). -/
def Sbi.handOver (b : Sbi) (r : Slot) (a : Access) : Sbi :=
  let b := b.setSlot r (some a)
  if b.tenure = .idle then { b with tenure := .requesting } else b

/-- What the OWNER does with no access in flight: it begins the next one while its grant stands, requests again if it has
lost the grant, and releases the bus when none is pending (R170, R173). -/
def Sbi.settle (b : Sbi) : Sbi :=
  if b.tenure = .owner ∧ b.inFlight = none then
    if b.anyPending then
      if b.granted then b.begin else { b with tenure := .requesting }
    else { b with tenure := .releasing, granted := false }
  else b

/-- The Engine's service waits for a walk that the walker can start: it is IDLE, the mode NORMAL and no engine reset in
progress (R34, R36). -/
def State.walkDue (s : State) : Bool :=
  s.engine.service != .none && s.walker.engineWaiting.isSome && !s.walker.busy && s.urgent.mode == .normal
    && !s.window.resetting

/-- What the SBI does when a step has ended an access or a service. An OWNER whose grant stands keeps the bus for the walk that
the Engine's service waits for, whose first access becomes pending as the walk starts: it holds the bus "through a move
service and its walks" (R170). For an access that any other event makes pending (a grant, the save's beginning, a probe's
walk) it does not wait, which is the model's choice (log entry 19). -/
def State.settleBus (s : State) : State :=
  if s.walkDue ∧ s.sbi.granted ∧ ¬ s.sbi.anyPending then s else { s with sbi := s.sbi.settle }

/-- SGNT/ is seen asserted (R170). -/
def Sbi.grant (b : Sbi) : Sbi :=
  if b.tenure = .requesting then Sbi.settle { b with tenure := .owner, granted := true } else b

/-- SGNT/ is seen deasserted (R170). -/
def Sbi.grantEnds (b : Sbi) : Sbi :=
  match b.tenure with
  | .owner => Sbi.settle { b with granted := false }
  | .releasing => { b with tenure := if b.anyPending then .requesting else .idle }
  | .idle | .requesting => b

/-- An engine reset empties the pending slots at once (R174). -/
def Sbi.emptySlots (b : Sbi) : Sbi := { b with walker := none, engine := none, urgent := none }

/-- The tenure ends at the end of an engine reset: OWNER and REQUESTING become RELEASING (R174). -/
def Sbi.endReset (b : Sbi) : Sbi :=
  let b := { b.emptySlots with inFlight := none, granted := false }
  match b.tenure with
  | .owner | .requesting => { b with tenure := .releasing }
  | .idle | .releasing => b

/-- A requester hands over an access (R169). -/
def State.handOver (s : State) (r : Slot) (a : Access) : State := { s with sbi := s.sbi.handOver r a }

/-- A memory word read. -/
def readWord (a : PAddr) : Access := { space := .memory, width := .word, address := a, write := none }

/-- A memory word write. -/
def writeWord (a : PAddr) (v : Word) : Access := { space := .memory, width := .word, address := a, write := some v }

/-- A memory byte write. -/
def writeByte (a : PAddr) (v : Byte) : Access :=
  { space := .memory, width := .byte, address := a, write := some (v.setWidth 16) }

/-- The access uses the lane SD15..SD8 alone: a byte at an odd address or port (R171). -/
def Access.highLane (a : Access) : Bool := a.width == .byte && a.address.getLsbD 0

/-- The data that a read takes from its enabled lanes (R171, R172); a byte stands in bits 7..0. -/
def Access.taken (a : Access) (sd : Word) : Word :=
  match a.width with
  | .word => sd
  | .byte => (if a.highLane then highByte sd else lowByte sd).setWidth 16

/-- The access in flight is one of slot `r`. -/
def Sbi.carries (b : Sbi) (r : Slot) : Option Access :=
  match b.inFlight with
  | some (q, a) => if q = r then some a else none
  | none => none

/-! ### Fault queue (R120 to R128) -/

/-- R123 and R124: the record joins the queue and the channel is FAULTED, or it is held and the channel is FAULT_WAIT. Then
R96: a pending abort is applied, a pending halt is dropped. -/
def State.takeFault (s : State) (c : ChannelId) (r : FaultRecord) : State :=
  let x := s.channels[c]
  let room := s.queue.length < Config.queueCapacity
  let y : Channel :=
    if room then { x with state := .faulted } else { x with state := .faultWait, held := some r }
  let y : Channel :=
    if x.pendingAbort then y.abort else { y with pendingHalt := false, pendingAbort := false }
  { s.setChannel c y with queue := if room then s.queue ++ [r] else s.queue }

/-- The lowest-numbered channel in FAULT_WAIT (R127). -/
def State.firstWaiting (s : State) : Option ChannelId :=
  allChannels.find? (fun c => s.channels[c].state == .faultWait)

/-- The removal of the head record, and the wake of the lowest-numbered FAULT_WAIT channel (R127). -/
def State.popFault (s : State) : State :=
  let s := { s with queue := s.queue.tail }
  match s.firstWaiting with
  | none => s
  | some c =>
    { s.modChannel c (fun x => { x with state := .faulted, held := none }) with
      queue := s.queue ++ (s.channels[c].held).toList }

/-! ### The Command Unit (R176, R177) -/

/-- What a command makes of its latched arguments: the state and the result code. -/
abbrev Effect := Args → State → State × Result

/-- Writes the result code. -/
def State.setRes (s : State) (r : Result) : State := { s with window := { s.window with res := r } }

/-- The taking of a command: the arguments are latched and CMD takes the code (R176). -/
def State.latch (s : State) (code : Byte) : State :=
  { s with window := { s.window with cmd := code, latched := some s.window.args } }

/-- A write of `code` to CMD. It is refused while the Command Unit is BUSY or an engine reset is in progress (R177);
otherwise the command is taken and its result code recorded (R176). -/
def State.command (s : State) (code : Byte) (f : Effect) : State :=
  if s.window.busy ∨ s.window.resetting then s.refuseWrite
  else
    let r := f s.window.args (s.latch code)
    r.1.setRes r.2

end Sys2Proof.Machine
end

