-- ==== Sys2Proof/Machine/Engine.lean ====
section
/-! DEFINITION. The Transfer Engine: the services of a normal channel and of the urgent channel U, from the grant to the
outcome (04_descriptors_and_chains.md, 06_scheduling_and_the_transfer_engine.md, 08_urgent_service.md). -/

namespace Sys2Proof.Machine

/-! ### The served party -/

/-- The element in hand. -/
def State.element (s : State) : Element :=
  match s.engine.server with
  | .channel c => s.channels[c].element
  | .urgent => s.urgent.u.element

/-- The current descriptor address: a channel's, or U's position (R60). -/
def State.descriptorAddr (s : State) : Long :=
  match s.engine.server with
  | .channel c => s.channels[c].descriptor
  | .urgent => s.urgent.u.position

/-- Changes U's context. -/
def State.modU (s : State) (f : UContext → UContext) : State := { s with urgent := { s.urgent with u := f s.urgent.u } }

/-- Writes remaining and the current sides of the element in hand. -/
def State.putElement (s : State) (e : Element) : State :=
  match s.engine.server with
  | .channel c => s.modChannel c (fun x => { x with remaining := e.remaining, source := e.source, dest := e.dest })
  | .urgent => s.modU (fun x => { x with remaining := e.remaining, source := e.source, dest := e.dest })

/-- Changes the Engine's record. -/
def State.modEngine (s : State) (f : Engine → Engine) : State := { s with engine := f s.engine }

/-- The Engine becomes free (R106). -/
def State.freeEngine (s : State) : State := { s with engine := Engine.free }

/-- The Engine holds a service for `w`, with nothing made of it yet (R107). -/
def State.startService (s : State) (w : Server) (v : Service) : State :=
  { s with engine := { Engine.free with service := v, server := w } }

/-! ### Ends of a service -/

/-- A context that a service ends in `st`, with R95 applied: a pending abort makes it IDLE with ABORTED; a pending halt
stops a channel that would be READY or WAIT_REQ. Both flags are cleared (R94). -/
def Channel.leave (x : Channel) (st : ChannelState) : Channel :=
  let x := { x with state := st }
  if x.pendingAbort then x.abort
  else
    let x' := { x with pendingHalt := false, pendingAbort := false }
    if x.pendingHalt ∧ (st = .ready ∨ st = .waitReq) then { x' with state := .halted } else x'

/-- The service of channel `c` ends in state `st` and the Engine becomes free (R82, R95, R107). -/
def State.endService (s : State) (c : ChannelId) (st : ChannelState) : State :=
  (s.modChannel c (fun x => x.leave st)).freeEngine

/-- U's run stops in URGENT_HOLD with a fault code and the URGENT cause (R149). -/
def State.enterHold (s : State) (f : UrgentFault) : State :=
  ({ s with urgent := { s.urgent with mode := .urgentHold, fault := f } }).freeEngine.raiseUrgent

/-- The urgent fault code of a failed check or access of U: a format failure, or a bus error (R149). -/
def urgentFaultOf : FaultKind → UrgentFault
  | .descFormat => .descFormat
  | .overLimit | .dirAbsent | .pageAbsent | .writeDenied | .portDenied | .busError => .busError

/-- The fault record of channel `c` (R114). -/
def State.faultRecord (s : State) (c : ChannelId) (k : FaultKind) (a : FaultAccess) (addr : BitVec 22) : FaultRecord :=
  let x := s.channels[c]
  { channel := c, domain := x.domain, kind := k, access := a, address := addr, descriptor := virtualOf x.descriptor,
    phase := x.phase }

/-- The action in hand fails: a normal channel's fault goes to the fault queue (R114), U's run stops (R149). -/
def State.failAction (s : State) (k : FaultKind) (a : FaultAccess) (addr : BitVec 22) : State :=
  match s.engine.server with
  | .channel c => (s.takeFault c (s.faultRecord c k a addr)).freeEngine
  | .urgent => s.enterHold (urgentFaultOf k)

/-- The translation that the action asked for is declined: its service ends READY in the phase it had, without a fault
(R82, R117). U asks for no translation. -/
def State.declineAction (s : State) : State :=
  match s.engine.server with
  | .channel c => s.endService c .ready
  | .urgent => s

/-! ### Translation (R40 to R42, R110) -/

/-- What the Engine gets when it asks for a translation, at once or from the walker. -/
inductive Answer where
  | translated (p : PAddr)
  | fault (k : FaultKind)
  | declined
  /-- The request is with the walker. -/
  | waiting
deriving DecidableEq, Repr

/-- A request to the walker waits there; outside NORMAL it is declined (R34, R36). -/
def State.requestWalk (s : State) (r : WalkRequest) : Answer × State :=
  if s.urgent.mode = .normal then (.waiting, { s with walker := { s.walker with engineWaiting := some r } })
  else (.declined, s)

/-- The Engine's lookup for domain `d` (R40). A hit marks its way (R44) and is answered by R41 or R42; a miss, or a hit that
calls for an update walk (R30), asks the walker. -/
def State.translate (s : State) (d : DomainId) (v : VAddr) (a : MemAccess) : Answer × State :=
  let i := setOf (vpnOf v)
  match hitWay s.cache[i] d (vpnOf v) with
  | none => s.requestWalk { domain := d, vaddr := v, access := a }
  | some w =>
    let e := s.cache[i][w]
    let t := s.touch i w
    if a.writes then
      if !e.writable then (.fault .writeDenied, t)
      else if e.writtenKnown || !s.domains[d].trackWritten then (.translated (physical e.frame v), t)
      else t.requestWalk { domain := d, vaddr := v, access := a }
    else (.translated (physical e.frame v), t)

/-- The domain of the channel served; U has none and asks for no translation. -/
def State.servedDomain (s : State) : DomainId :=
  match s.engine.server with
  | .channel c => s.channels[c].domain
  | .urgent => 0

/-! ### Fetch (R60, R64) -/

/-- The virtual address of the descriptor word that the fetch reads next (R64). -/
def State.fetchVaddr (s : State) : VAddr :=
  virtualOf s.descriptorAddr + BitVec.ofNat 22 (2 * s.engine.fetched.length)

/-- The fetch goes on with the answer to the lookup of its next word. -/
def State.fetchAnswer (s : State) : Answer → State
  | .translated p => s.handOver .engine (readWord p)
  | .fault k => s.failAction k .fetch s.fetchVaddr
  | .declined => s.declineAction
  | .waiting => s

/-- The fetch asks for its next word: a normal channel by a lookup, U at the physical address (R64, R75). -/
def State.fetchNext (s : State) : State :=
  match s.engine.server with
  | .channel _ =>
    let r := s.translate s.servedDomain s.fetchVaddr .fetch
    r.2.fetchAnswer r.1
  | .urgent =>
    s.handOver .engine
      (readWord (physicalOf s.descriptorAddr + BitVec.ofNat 24 (2 * s.engine.fetched.length)))

/-- A fetch service begins with the check of the current descriptor address (R60). -/
def State.fetchBegin (s : State) (w : Server) : State :=
  let s := s.startService w .fetch
  if descAddrOk w s.descriptorAddr then s.fetchNext
  else s.failAction .descFormat .fetch (virtualOf s.descriptorAddr)

/-! ### Writeback (R70, R71) -/

/-- The virtual address of the status byte (R70). -/
def State.statusVaddr (s : State) : VAddr := virtualOf s.descriptorAddr + 1

/-- The value of the status byte (R70). -/
def State.statusByte (s : State) : Byte :=
  match s.engine.server with
  | .channel c => s.channels[c].code.bits.setWidth 8
  | .urgent => s.urgent.u.code.bits.setWidth 8

/-- The writeback goes on with the answer to its lookup. -/
def State.writebackAnswer (s : State) : Answer → State
  | .translated p => s.handOver .engine (writeByte p s.statusByte)
  | .fault k => s.failAction k .writeback s.statusVaddr
  | .declined => s.declineAction
  | .waiting => s

/-- A writeback service begins (R70); U's is a physical byte write (R76). -/
def State.writebackBegin (s : State) (w : Server) : State :=
  let s := s.startService w .writeback
  match w with
  | .channel _ =>
    let r := s.translate s.servedDomain s.statusVaddr .writeback
    r.2.writebackAnswer r.1
  | .urgent => s.handOver .engine (writeByte (physicalOf s.descriptorAddr + 1) s.statusByte)

/-! ### The beat (R109 to R113, R118) -/

/-- Port accesses carry the port number on SA7..SA0 and 0 above (R171). -/
def portAddr (p : Port) : PAddr := p.setWidth 24

/-- The beat's write access, carrying its datum (R112). -/
def State.issueWrite (s : State) : State :=
  let e := s.element
  let a : Access :=
    match kindOf e.control with
    | .emit => { space := .port, width := widthOf e.control, address := portAddr (portOf e.dest), write := s.engine.datum }
    | .copy | .ingest | .fill =>
      { space := .memory, width := widthOf e.control, address := s.engine.writeAt.getD 0, write := s.engine.datum }
  (s.modEngine (fun x => { x with stage := .write })).handOver .engine a

/-- The beat's first access, once every check has passed: the read side, or for a FILL the write of the pattern (R112). -/
def State.issueAccesses (s : State) : State :=
  let e := s.element
  match kindOf e.control with
  | .fill => (s.modEngine (fun x => { x with datum := some e.pattern })).issueWrite
  | .ingest =>
    (s.modEngine (fun x => { x with stage := .read })).handOver .engine
      { space := .port, width := widthOf e.control, address := portAddr (portOf e.source), write := none }
  | .copy | .emit =>
    (s.modEngine (fun x => { x with stage := .read })).handOver .engine
      { space := .memory, width := widthOf e.control, address := s.engine.readAt.getD 0, write := none }

/-- The write side's memory check has its answer (R110); it is the last check of the beat (R109). -/
def State.writeSideAnswer (s : State) : Answer → State
  | .translated p => (s.modEngine (fun x => { x with writeAt := some p })).issueAccesses
  | .fault k => s.failAction k .write (virtualOf s.element.dest)
  | .declined => s.declineAction
  | .waiting => s

/-- The check of a memory write side: the current destination, access write (R109). -/
def State.checkWriteSide (s : State) : State :=
  let r := s.translate s.servedDomain (virtualOf s.element.dest) .write
  r.2.writeSideAnswer r.1

/-- The grant check of an EMIT's destination port (R109, R111). -/
def State.checkWritePort (s : State) : State :=
  let e := s.element
  if s.accessGranted s.servedDomain (widthOf e.control) (portOf e.dest) then s.issueAccesses
  else s.failAction .portDenied .portWrite ((portOf e.dest).setWidth 22)

/-- The read side's memory check has its answer; the second check follows (R109, R110). -/
def State.readSideAnswer (s : State) : Answer → State
  | .translated p =>
    let s := s.modEngine (fun x => { x with readAt := some p })
    match kindOf s.element.control with
    | .emit => s.checkWritePort
    | .copy | .ingest | .fill => s.checkWriteSide
  | .fault k => s.failAction k .read (virtualOf s.element.source)
  | .declined => s.declineAction
  | .waiting => s

/-- CHECK of a beat of a normal channel, in the order of its kind (R109). -/
def State.checkBeat (s : State) : State :=
  let e := s.element
  match kindOf e.control with
  | .copy | .emit =>
    let r := s.translate s.servedDomain (virtualOf e.source) .read
    r.2.readSideAnswer r.1
  | .ingest =>
    if s.accessGranted s.servedDomain (widthOf e.control) (portOf e.source) then s.checkWriteSide
    else s.failAction .portDenied .portRead ((portOf e.source).setWidth 22)
  | .fill => s.checkWriteSide

/-- A beat begins (R109). U makes no check: its physical addresses are used as they stand (R118). -/
def State.beginBeat (s : State) : State :=
  let s := s.modEngine (fun x => { x with stage := .check, readAt := none, writeAt := none, datum := none })
  match s.engine.server with
  | .channel _ => s.checkBeat
  | .urgent =>
    let e := s.element
    (s.modEngine (fun x =>
      { x with readAt := some (physicalOf e.source), writeAt := some (physicalOf e.dest) })).issueAccesses

/-- The bound line of a paced element is found deasserted (R84, R108 case 5). -/
def State.lineLow (s : State) (x : Channel) : Bool :=
  match x.line with
  | some n => x.element.paced && !s.pins.preq.getLsbD n.val
  | none => false

/-- The decision before each beat (R108). U's examines case 1 alone (R118). -/
def State.nextBeat (s : State) : State :=
  match s.engine.server with
  | .urgent =>
    if s.urgent.u.remaining = 0 then
      (s.modU (fun x => { x with phase := .writeback, code := .complete })).writebackBegin .urgent
    else s.beginBeat
  | .channel c =>
    let x := s.channels[c]
    if x.remaining = 0 then
      (s.modChannel c (fun x => { x with phase := .writeback, code := .complete })).endService c .ready
    else if s.engine.beats ≠ 0 ∧ (x.pendingAbort ∨ x.pendingHalt) then s.endService c .ready
    else if s.engine.beats = x.burst then s.endService c .ready
    else if s.urgent.mode ≠ .normal then s.endService c .ready
    else if s.lineLow x then s.endService c .waitReq
    else s.beginBeat

/-- A move service begins (R107, R147). -/
def State.moveBegin (s : State) (w : Server) : State := (s.startService w .move).nextBeat

/-- The service that a phase names begins (R82, R107, R146). -/
def State.serviceBegin (s : State) (w : Server) : Phase → State
  | .fetch => s.fetchBegin w
  | .move => s.moveBegin w
  | .writeback => s.writebackBegin w

/-- The Engine goes on with what the walker hands it. In a beat, the read side is answered while a COPY or EMIT has no read
translation yet, and the write side otherwise (R109). -/
def State.engineAnswer (s : State) (a : Answer) : State :=
  match s.engine.service with
  | .none => s
  | .fetch => s.fetchAnswer a
  | .writeback => s.writebackAnswer a
  | .move =>
    match kindOf s.element.control with
    | .copy | .emit => if s.engine.readAt = none then s.readSideAnswer a else s.writeSideAnswer a
    | .ingest | .fill => s.writeSideAnswer a

/-! ### The urgent run and the restore's beginning -/

/-- U's context at the start of the list, the urgent fault code NONE, the mode URGENT_RUN, and U's first fetch (R145). -/
def State.startRun (s : State) : State :=
  ({ s with urgent := { s.urgent with
      mode := .urgentRun, fault := .none,
      u := { UContext.reset with position := s.urgent.listBase.setWidth 32 } } }).fetchBegin .urgent

/-- The address of word `i` of the image (R142, R157). -/
def State.imageAddr (s : State) (i : Nat) : PAddr := s.urgent.saveBase + BitVec.ofNat 24 (2 * i)

/-- The restore begins: read progress 0, the buffer empty, and the first word read (R157). -/
def State.beginRestore (s : State) : State :=
  let s := ({ s with urgent := { s.urgent with mode := .urgentRestore, image := [], readProgress := 0 } }).freeEngine
  s.handOver .urgent (readWord (s.imageAddr 0))

/-- What follows when U's run may go on from its base or end: a set latch is cleared and reruns the list, else restore
begins (R148, R152). -/
def State.rerunOrRestore (s : State) : State :=
  match s.urgent.latch with
  | some _ => ({ s with urgent := { s.urgent with latch := none } }).startRun
  | none => s.beginRestore

/-- U's chain has ended (R148). -/
def State.urgentChainEnd (s : State) : State :=
  if s.urgent.latch = none ∧ isHold s.urgent.u.control then s.enterHold .none else s.rerunOrRestore

/-! ### Access ends (R64, R112 to R116, R70, R72) -/

/-- All eight words are read: the descriptor is checked (R65) and loaded (R67), and U goes on to its move service (R146). -/
def State.fetchDone (s : State) : State :=
  let d := descriptorOf s.engine.fetched
  if d.formatOk s.engine.server then
    match s.engine.server with
    | .channel c => (s.modChannel c (fun x => x.load d)).endService c .ready
    | .urgent => (s.modU (fun x => x.load d)).moveBegin .urgent
  else s.failAction .descFormat .fetch (virtualOf s.descriptorAddr)

/-- A descriptor word read ends (R64). -/
def State.fetchReadEnd (s : State) (a : Access) : BusEnd → State
  | .busError => s.failAction .busError .fetch s.fetchVaddr
  | .ready sd =>
    let s := s.modEngine (fun x => { x with fetched := x.fetched ++ [a.taken sd] })
    if s.engine.fetched.length = Config.descriptorWords then s.fetchDone else s.fetchNext

/-- The fault access and address of a beat's read side (R115). -/
def Element.readSide (e : Element) : FaultAccess × BitVec 22 :=
  match kindOf e.control with
  | .ingest => (.portRead, (portOf e.source).setWidth 22)
  | .copy | .emit | .fill => (.read, virtualOf e.source)

/-- The fault access and address of a beat's write side (R116). -/
def Element.writeSide (e : Element) : FaultAccess × BitVec 22 :=
  match kindOf e.control with
  | .emit => (.portWrite, (portOf e.dest).setWidth 22)
  | .copy | .ingest | .fill => (.write, virtualOf e.dest)

/-- A beat's read ends: the datum is held and the write issued, or the beat faults (R112, R115). -/
def State.beatReadEnd (s : State) (a : Access) : BusEnd → State
  | .busError => s.failAction .busError s.element.readSide.1 s.element.readSide.2
  | .ready sd => (s.modEngine (fun x => { x with datum := some (a.taken sd) })).issueWrite

/-- A beat's write ends: remaining and the sides advance and the next beat is decided, or the beat faults (R113, R116). U's
beats are not counted (R106). -/
def State.beatWriteEnd (s : State) : BusEnd → State
  | .busError => s.failAction .busError s.element.writeSide.1 s.element.writeSide.2
  | .ready _ =>
    let s := s.putElement s.element.advance
    let s := s.modEngine (fun x =>
      { x with datum := none, beats := match x.server with | .channel _ => x.beats + 1 | .urgent => x.beats })
    s.nextBeat

/-- The status byte write ends: the advance of R72, for U with HOLD and the end of its chain (R148, R149), or the
writeback faults (R71). -/
def State.statusWriteEnd (s : State) : BusEnd → State
  | .busError => s.failAction .busError .writeback s.statusVaddr
  | .ready _ =>
    match s.engine.server with
    | .channel c =>
      let x := s.channels[c]
      ((s.modChannel c Channel.advance).markDone c x.control).endService c
        (if isEnd x.control then .done else .ready)
    | .urgent =>
      let u := s.urgent.u
      if isEnd u.control then s.urgentChainEnd
      else if isHold u.control then s.enterHold .none
      else (s.modU (fun x => { x with position := x.next, phase := .fetch })).fetchBegin .urgent

end Sys2Proof.Machine
end

