-- ==== Sys2Proof/Machine/Walker.lean ====
section
/-! DEFINITION. The walker: the start and restart of walks, the ends of its accesses, and what it hands over
(02_page_tables_and_the_walk.md, section 3.5 of 03_the_translation_cache.md); the answers of probes (section 3.6). -/

namespace Sys2Proof.Machine

/-! ### Probe answers (R56 to R58) -/

/-- The probe's answer is written, the CMD cause raised, and the Command Unit IDLE again (R56, R57). -/
def State.answerProbe (s : State) (r : ProbeResult) : State :=
  { s with window := { s.window with probe := r, cmdCause := true, busy := false } }

/-- An outcome without an address: PADL, PADH and PINF are 0 (R57, R58). -/
def ProbeResult.empty (o : ProbeOutcome) : ProbeResult :=
  { outcome := o, address := 0, hit := false, writable := false, writtenKnown := false }

/-- The outcome of the same name as a walk's fault (R57). A walk raises neither PORT_DENIED nor DESC_FORMAT (R121). -/
def probeOutcomeOf : FaultKind → ProbeOutcome
  | .overLimit => .overLimit
  | .dirAbsent => .dirAbsent
  | .pageAbsent => .pageAbsent
  | .writeDenied => .writeDenied
  | .portDenied | .descFormat | .busError => .busError

/-! ### Hand-over (R27, R28, R36) -/

/-- Changes the walker's record. -/
def State.modWalker (s : State) (f : Walker → Walker) : State := { s with walker := f s.walker }

/-- The walk ends and the walker is IDLE. -/
def State.endWalk (s : State) : State := s.modWalker (fun w => { w with state := .idle, stale := false })

/-- The walk ends in a fault (R28). -/
def State.deliverFault (s : State) (k : FaultKind) : State :=
  match s.walker.requester with
  | .engine => s.endWalk.engineAnswer (.fault k)
  | .probe => s.endWalk.answerProbe (ProbeResult.empty (probeOutcomeOf k))

/-- The walk ends with no outcome, as if declined (R36, R54). -/
def State.deliverDeclined (s : State) : State :=
  match s.walker.requester with
  | .engine => s.endWalk.engineAnswer .declined
  | .probe => s.endWalk.answerProbe (ProbeResult.empty .aborted)

/-- The translation that the walk delivers (R27); `written` is the entry's Written bit as read or as set by this walk. -/
def Walker.translation (w : Walker) (written : Bool) : Translation :=
  { domain := w.request.domain, vpn := vpnOf w.request.vaddr, frame := w.frame,
    writable := w.pageLow.getLsbD 1 && !w.readOnly, writtenKnown := written }

/-- The walk ends with a translation. An Engine walk's is installed first, and the Engine then goes on; a probe walk's is
not installed (R27, R35, R57). -/
def State.deliver (s : State) (written : Bool) : State :=
  let x := s.walker.translation written
  let p := physical x.frame s.walker.request.vaddr
  match s.walker.requester with
  | .engine => (s.endWalk.install x).engineAnswer (.translated p)
  | .probe =>
    s.endWalk.answerProbe
      { outcome := .translated, address := p, hit := false, writable := x.writable, writtenKnown := x.writtenKnown }

/-! ### The walk (R20 to R25, R32) -/

/-- The walker issues a memory word read. -/
def State.walkRead (s : State) (a : PAddr) : State := s.handOver .walker (readWord a)

/-- A walk starts or starts again: what an earlier attempt gathered is dropped, the domain record is read, the page limit
checked, and the first directory word read issued (R20, R21, R32, R52). -/
def State.startWalk (s : State) (q : Requester) (r : WalkRequest) : State :=
  let d := s.domains[r.domain]
  let s := s.modWalker (fun w =>
    { w with state := .dirRead, requester := q, request := r, tracking := (q == .engine), dirBase := d.dirBase,
             pageLimit := d.pageLimit, readOnly := d.readOnly, trackUsed := d.trackUsed,
             trackWritten := d.trackWritten, second := false, dirPresent := false, tableBase := 0, pageLow := 0,
             frame := 0, stale := false })
  if d.pageLimit < vpnOf r.vaddr then s.deliverFault .overLimit
  else s.walkRead (dirEntryAddr d.dirBase r.vaddr)

/-- This walk sets Written in the value it writes back: W 1 and a write or writeback access (R25). -/
def Walker.setsWritten (w : Walker) : Bool := w.trackWritten && w.request.access.writes

/-- The tracking step writes the page entry back (R25). -/
def Walker.writesBack (w : Walker) : Bool :=
  w.tracking && ((w.trackUsed && !w.pageLow.getLsbD 2) || (w.setsWritten && !w.pageLow.getLsbD 3))

/-- The low word written back: as read, with Used set, and with Written set where this walk sets it (R25). -/
def Walker.backValue (w : Walker) : Word :=
  w.pageLow ||| 0x0004#16 ||| (if w.setsWritten then 0x0008#16 else 0#16)

/-- The write check and the tracking step, once a present page entry is read (R24, R25). -/
def State.walkChecks (s : State) : State :=
  let w := s.walker
  if w.request.access.writes ∧ (w.pageLow.getLsbD 1 = false ∨ w.readOnly) then s.deliverFault .writeDenied
  else if w.writesBack then
    (s.modWalker (fun w => { w with state := .pageUpdate })).handOver .walker
      (writeWord (pageEntryAddr w.tableBase w.request.vaddr) w.backValue)
  else s.deliver (w.pageLow.getLsbD 3)

/-- A word of the directory entry is read (R18, R22). -/
def State.dirWord (s : State) (x : Word) : State :=
  let v := s.walker.request.vaddr
  if s.walker.second then
    let s := s.modWalker (fun w => { w with tableBase := lowByte x ++ lowByte w.tableBase })
    if s.walker.dirPresent then
      (s.modWalker (fun w => { w with state := .pageRead, second := false })).walkRead
        (pageEntryAddr s.walker.tableBase v)
    else s.deliverFault .dirAbsent
  else
    (s.modWalker (fun w =>
      { w with second := true, dirPresent := x.getLsbD 0, tableBase := 0#8 ++ highByte x })).walkRead
        (dirEntryAddr s.walker.dirBase v + 2)

/-- A word of the page entry is read (R19, R23). -/
def State.pageWord (s : State) (x : Word) : State :=
  if s.walker.second then
    let s := s.modWalker (fun w => { w with frame := lowByte x ++ w.pageLow.extractLsb' 11 5 })
    if s.walker.pageLow.getLsbD 0 then s.walkChecks else s.deliverFault .pageAbsent
  else
    (s.modWalker (fun w => { w with second := true, pageLow := x })).walkRead
      (pageEntryAddr s.walker.tableBase s.walker.request.vaddr + 2)

/-- A walker access ends (R32). A walk marked stale while this access was in flight, or was still pending (log entry 20), drops
its result and begins again, or outside NORMAL ends with no outcome (R52, R54). A bus error ends the walk with BUS_ERROR
(R29). -/
def State.walkAccessEnd (s : State) (a : Access) (e : BusEnd) : State :=
  if s.walker.stale then
    if s.urgent.mode = .normal then s.startWalk s.walker.requester s.walker.request else s.deliverDeclined
  else
    match e, s.walker.state with
    | .busError, _ => s.deliverFault .busError
    | .ready sd, .dirRead => s.dirWord (a.taken sd)
    | .ready sd, .pageRead => s.pageWord (a.taken sd)
    | .ready _, .pageUpdate => s.deliver (s.walker.setsWritten || s.walker.pageLow.getLsbD 3)
    | .ready _, .idle => s

/-- The IDLE walker takes a waiting request, the Engine's first (R34). -/
def State.takeRequest (s : State) : State :=
  match s.walker.engineWaiting, s.walker.probeWaiting with
  | some r, _ => (s.modWalker (fun w => { w with engineWaiting := none })).startWalk .engine r
  | none, some r => (s.modWalker (fun w => { w with probeWaiting := none })).startWalk .probe r
  | none, none => s

/-- The waiting requests are declined when the mode leaves NORMAL (R36, R58). A bus that was kept for the Engine's walk is
released with its service (R170). -/
def State.declineWaiting (s : State) : State :=
  let s :=
    match s.walker.engineWaiting with
    | some _ => ((s.modWalker (fun w => { w with engineWaiting := none })).engineAnswer .declined).settleBus
    | none => s
  match s.walker.probeWaiting with
  | some _ => (s.modWalker (fun w => { w with probeWaiting := none })).answerProbe (ProbeResult.empty .aborted)
  | none => s

end Sys2Proof.Machine
end

