-- ==== Sys2Proof/Machine/Urgent.lean ====
section
/-! DEFINITION. The Urgent Controller: urgent requests, the save of the image, its reading back, validation and loading,
and the lock (08_urgent_service.md, 09_restore_and_the_locked_mode.md). -/

namespace Sys2Proof.Machine

/-! ### Urgent requests (R139) -/

/-- An urgent request acts on the mode at the moment it is taken (R139). When the mode leaves NORMAL, the waiting walk
requests are declined (R36). -/
def State.urgentRequest (s : State) (src : Source) : State :=
  match s.urgent.mode with
  | .normal =>
    ({ s with urgent := { s.urgent with mode := .urgentEntry, step := .drain, entryCause := some src } }).declineWaiting
  | .urgentEntry | .urgentRun | .urgentHold | .urgentRestore =>
    match s.urgent.latch with
    | none => { s with urgent := { s.urgent with latch := some src } }
    | some _ => s
  | .locked => s

/-! ### Lock (R144, R158, R159) -/

/-- The part enters LOCKED: the lock cause is written, the latch cleared, the LOCK cause raised (R144, R158, R159). The Engine
is free there (R166). -/
def State.lockPart (s : State) (k : LockKind) (place : Nat) : State :=
  ({ s with urgent := { s.urgent with
      mode := .locked, lock := { kind := k, place := BitVec.ofNat 8 place }, latch := none } }).raiseLock

/-! ### Save (R142 to R145) -/

/-- The 144 words of the image: the header, then the records of channels 0 to 7 (R143). -/
def State.imageWords (s : State) : List Word :=
  headerOf s.urgent.entryCause s.urgent.saveBase ++ allChannels.flatMap (fun c => s.channels[c].record)

/-- The save writes the word that its progress names (R142). -/
def State.saveNext (s : State) : State :=
  s.handOver .urgent (writeWord (s.imageAddr s.urgent.saveProgress) (wordAt s.imageWords s.urgent.saveProgress))

/-- The entry step becomes SAVE, save progress 0, and the first word is written (R140, R142). -/
def State.saveBegin (s : State) : State :=
  ({ s with urgent := { s.urgent with step := .save, saveProgress := 0 } }).saveNext

/-- A save write ends (R142, R144, R145). -/
def State.saveWriteEnd (s : State) : BusEnd → State
  | .busError => s.lockPart .saveBusError s.urgent.saveProgress
  | .ready _ =>
    let s := { s with urgent := { s.urgent with saveProgress := s.urgent.saveProgress + 1 } }
    if s.urgent.saveProgress = Config.imageWords then s.startRun else s.saveNext

/-! ### Validation (R159 to R161) -/

/-- The check of the header (R159). -/
def relocationOk (slot : Long) : Bool := slot.toNat % 0x200 == 0 && slot.toNat ≤ Config.highestSaveBase

/-- Check 3 of R160: the record's state may replace the on-chip state. -/
def transitionOk (old new : ChannelState) : Bool :=
  new == old || new == .idle || (new == .halted && (old == .ready || old == .waitReq))

/-- Check 5 of R160: a REDO or SKIP disposition is allowed. -/
def dispositionAllowed (st : ChannelState) (phase : Byte) : Bool :=
  !(st == .idle || st == .done || st == .faultWait) && phase != 0

/-- The conditions of R161 on a record whose state `st` is not IDLE. -/
def State.contextOk (s : State) (st : ChannelState) (r : ImageRecord) : Bool :=
  let move := r.phase == 1
  (match domainOfCode r.domain with
    | some d => st == .done || s.domains[d].state == .opened
    | none => false)
  && 1 ≤ r.count.toNat && r.remaining.toNat ≤ r.count.toNat
  && r.phase.toNat ≤ 2
  && 1 ≤ r.burst.toNat && r.burst.toNat ≤ 16
  && r.line.isSome && (wbOfCode r.code).isSome
  && (st != .waitReq || move) && (!move || 1 ≤ r.remaining.toNat)
  && (st != .waitReq || (r.line != some none && r.element.paced))
  && (st != .done || r.phase == 2)
  && (r.phase == 0 || descAddrOk (.channel 0) r.descriptor)
  && (!move || r.element.sidesOk (spaceTop (.channel 0)))

/-- The first check that record `r` fails against the on-chip state `old` (R160, R161). -/
def State.recordFault (s : State) (old : ChannelState) (r : ImageRecord) : Option LockKind :=
  match stateOfCode r.state with
  | none => some .badStateCode
  | some st =>
    if !transitionOk old st then some .badTransition
    else if 2 < r.disposition.toNat then some .badDisposition
    else if r.disposition != 0 && !dispositionAllowed st r.phase then some .dispositionNotAllowed
    else if st != .idle && !s.contextOk st r then some .badContext
    else none

/-- The first failing check of the image and its record index: 8 for the header, which is checked first, else the lowest
record that fails (R159). -/
def State.imageFault (s : State) : Option (LockKind × Nat) :=
  if !relocationOk (relocationOf s.urgent.image) then some (.badRelocation, 8)
  else allChannels.findSome? (fun c =>
    (s.recordFault s.channels[c].state (imageRecord s.urgent.image c)).map (fun k => (k, c.val)))

/-! ### Loading (R163 to R165) -/

/-- The load of one record (R163). A field out of the range of the context, which only a record loaded as IDLE can carry,
takes its reset value. -/
def Channel.restore (x : Channel) (r : ImageRecord) : Channel :=
  let st := (stateOfCode r.state).getD .idle
  let ended := st == .idle && x.state != .idle
  { x with
    state := st
    domain := (domainOfCode r.domain).getD 0
    priority := r.priority
    line := r.line.getD (some 0)
    burst := if r.burst.toNat ≤ 16 then r.burst.extractLsb' 0 5 else 0
    control := lowByte r.control
    count := r.count
    remaining := r.remaining
    descriptor := r.descriptor
    source := r.source
    dest := r.dest
    next := r.next
    phase := (phaseOfCode r.phase).getD .fetch
    code := (wbOfCode r.code).getD .complete
    pendingHalt := false
    pendingAbort := false
    held := if ended then none else x.held
    completion := if ended then .aborted else x.completion }

/-- The state of a channel that a disposition has changed: FAULTED and WAIT_REQ become READY, READY and HALTED stay (R164). -/
def settledState : ChannelState → ChannelState
  | .faulted | .waitReq => .ready
  | st => st

/-- The REDO disposition (R164). -/
def Channel.redo (x : Channel) : Channel := { x with phase := .fetch, state := settledState x.state }

/-- The SKIP disposition (R164). -/
def Channel.skip (x : Channel) : Channel :=
  match x.phase with
  | .writeback =>
    let y := x.advance
    if isEnd x.control then y else { y with state := settledState x.state }
  | .move | .fetch => { x with phase := .writeback, code := .skipped, state := settledState x.state }

/-- A record is loaded and its disposition applied (R163, R164). -/
def Channel.loadRecord (x : Channel) (r : ImageRecord) : Channel :=
  let y := x.restore r
  match r.disposition.toNat with
  | 1 => y.redo
  | 2 => y.skip
  | _ => y

/-- The SKIP of a record is an advance, which sets the done flag where the control has NOTIFY or END (R164). -/
def ImageRecord.marks (r : ImageRecord) : Bool :=
  r.disposition == 2 && r.phase == 2 && marksDone (lowByte r.control)

/-- The done flags once the records of the image are loaded. -/
def marksOf (image : List Word) (done : BitVec 8) : BitVec 8 :=
  allChannels.foldl (fun d c => if (imageRecord image c).marks then d ||| doneMask c else d) done

/-- The eight channels are loaded, each from its own record, with their done flags (R163, R164). -/
def State.loadImage (s : State) : State :=
  { s with
    channels := updateEach allChannels (fun c x => x.loadRecord (imageRecord s.urgent.image c)) s.channels
    window := { s.window with done := marksOf s.urgent.image s.window.done } }

/-- The save base takes the relocation slot, and the mode becomes NORMAL, or with the latch set URGENT_ENTRY (R165). In
NORMAL each WAIT_REQ channel whose line is asserted becomes READY (R85). -/
def State.relocate (s : State) : State :=
  let s := { s with urgent := { s.urgent with saveBase := physicalOf (relocationOf s.urgent.image) } }
  match s.urgent.latch with
  | some src =>
    { s with urgent := { s.urgent with mode := .urgentEntry, step := .drain, entryCause := some src, latch := none } }
  | none => ({ s with urgent := { s.urgent with mode := .normal } }).wakeLines s.pins.preq

/-- The image is validated as a whole, and then loaded or the part locks (R159). -/
def State.finishRestore (s : State) : State :=
  match s.imageFault with
  | some (k, i) => s.lockPart k i
  | none => s.loadImage.relocate

/-- A restore read ends (R157 to R159). -/
def State.restoreReadEnd (s : State) (a : Access) : BusEnd → State
  | .busError => s.lockPart .restoreBusError s.urgent.readProgress
  | .ready sd =>
    let s := { s with urgent := { s.urgent with
      image := s.urgent.image ++ [a.taken sd], readProgress := s.urgent.readProgress + 1 } }
    if s.urgent.readProgress = Config.imageWords then s.finishRestore
    else s.handOver .urgent (readWord (s.imageAddr s.urgent.readProgress))

end Sys2Proof.Machine
end

