-- ==== Sys2Proof/Machine/Reset.lean ====
section
/-! DEFINITION. The two resets: hard reset (RST/) and engine reset (a write of 5AA5H to CTRL). -/

namespace Sys2Proof.Machine

/-- The cache after either reset: every valid and referenced field 0 (R59). -/
def State.clearCache (s : State) : State := s.invalidate (fun _ => true)

/-- The walker after an engine reset: IDLE, not stale, nothing waiting (R38). -/
def Walker.endReset (w : Walker) : Walker :=
  { w with state := .idle, stale := false, engineWaiting := none, probeWaiting := none }

/-- The Urgent Controller after an engine reset: the bases, both stagings and the URQ/ detector are kept (R136, R155). -/
def Urgent.endReset (u : Urgent) : Urgent :=
  { Urgent.reset with
    saveBase := u.saveBase, saveStaging := u.saveStaging, listBase := u.listBase, listStaging := u.listStaging,
    armed := u.armed }

/-- The window and the Command Unit after an engine reset: a probe in flight ends ABORTED, the event causes and the done
flags clear, all else is kept (R58, R73, R179, R183). That the latched arguments are kept is the model's choice (log
entry 21). -/
def Window.endReset (w : Window) : Window :=
  { w with
    busy := false, resetting := false, done := 0, urgentCause := false, lockCause := false, cmdCause := false,
    probe := if w.busy then ProbeResult.empty .aborted else w.probe }

/-- A fall of URQ/ that came during the engine reset is taken when the reset ends (R137). -/
def State.urqAfterReset (s : State) : State :=
  if s.urgent.armed ∧ ¬ s.pins.urqHigh then
    ({ s with urgent := { s.urgent with armed := false } }).urgentRequest .line
  else s

/-- Every block takes its engine-reset state (R15, R38, R59, R100, R102, R119, R135, R136, R174, R179). -/
def State.resetBlocks (s : State) : State :=
  { s with
    cache := s.clearCache.cache
    walker := s.walker.endReset
    channels := Vector.replicate 8 Channel.reset
    pointers := Vector.replicate 4 7
    engine := Engine.free
    queue := []
    urgent := s.urgent.endReset
    sbi := s.sbi.endReset
    window := s.window.endReset }

/-- The end of an engine reset (R179, R137). -/
def State.completeEngineReset (s : State) : State := s.resetBlocks.urqAfterReset

/-- A write of 5AA5H to CTRL (R179). With no access in flight the reset is over at once; otherwise the pending slots are
emptied and the reset waits for the access (R174). While one is in progress a second has no effect. -/
def State.beginEngineReset (s : State) : State :=
  if s.window.resetting then s
  else if s.sbi.inFlight = none then s.completeEngineReset
  else { s with sbi := s.sbi.emptySlots, window := { s.window with resetting := true } }

/-- RST/ is asserted: every block has its hard-reset state and the part takes nothing until the release (R174, R183). That
the window's values, and with them INT/ deasserted, stand from the assertion and not only from the release is the model's
choice (log entry 22). The commands that wait outside the part are not its state (log entry 9). -/
def State.assertReset (s : State) : State :=
  { State.reset with pins := { Pins.reset with rst := true }, pending := s.pending }

/-- RST/ is released: the tenure is RELEASING and the window answers (R169, R175). -/
def State.releaseReset (s : State) : State :=
  if s.pins.rst then { s with pins := { s.pins with rst := false }, sbi := { s.sbi with tenure := .releasing } } else s

/-- An access in flight of slot `r`, in a service or mode where `on` holds, ends (R172). The requester takes the completion
and acts on it; then the SBI begins the next access, keeps the bus for the service's walk, or ends its tenure (R170, R173).
While an engine reset is in progress the completion goes to no requester and the reset ends (R174, R179). Where no such access
is in flight, nothing ends. -/
def State.accessEnd (s : State) (r : Slot) (on : Bool) (act : State → Access → State) : State :=
  match s.sbi.carries r with
  | none => s
  | some a =>
    if on then
      if s.window.resetting then s.completeEngineReset
      else
        (act { s with sbi := { s.sbi with inFlight := none } } a).settleBus
    else s

end Sys2Proof.Machine
end

