-- ==== Sys2Proof/Machine/Signals.lean ====
section
/-! DEFINITION. The bus grant's events and the output pins (10_system_bus_interface_and_signals.md). -/

namespace Sys2Proof.Machine

/-- BUS_GRANT (R170). -/
def execBusGrant (s : State) : Host.Outcome State Fault Refusal :=
  .next (s.unlessReset { s with sbi := s.sbi.grant })

/-- BUS_GRANT_DEASSERTED (R170). -/
def execBusGrantDeasserted (s : State) : Host.Outcome State Fault Refusal :=
  .next (s.unlessReset { s with sbi := s.sbi.grantEnds })

/-- SREQ/ is asserted in REQUESTING and OWNER, and not while RST/ is asserted (R170, R174). -/
def State.busRequested (s : State) : Bool :=
  !s.pins.rst && (s.sbi.tenure == .requesting || s.sbi.tenure == .owner)

/-- The system bus outputs of an access in flight (R171). A lane that the part does not drive is none. -/
structure BusOutputs where
  sa : BitVec 24
  /-- SMIO/ high: memory. -/
  memory : Bool
  /-- SBE0/ and SBE1/ asserted. -/
  sbe0 : Bool
  sbe1 : Bool
  /-- SRD/ asserted; otherwise SWR/. -/
  read : Bool
  /-- SD7..SD0 and SD15..SD8. -/
  low : Option Byte
  high : Option Byte
deriving DecidableEq, Repr

/-- The outputs of an access (R171). -/
def Access.outputs (a : Access) : BusOutputs :=
  let lowOn := a.width == .word || !a.address.getLsbD 0
  let highOn := a.width == .word || a.address.getLsbD 0
  { sa := a.address, memory := a.space == .memory, sbe0 := lowOn, sbe1 := highOn, read := a.write.isNone,
    low := if lowOn then a.write.map lowByte else none,
    high := if highOn then a.write.map (fun v => if a.width == .word then highByte v else lowByte v) else none }

/-- The SBI drives the bus only in OWNER and only while an access is in flight; otherwise its outputs float (R170). -/
def State.busOutputs (s : State) : Option BusOutputs :=
  if s.pins.rst ∨ s.sbi.tenure ≠ .owner then none else s.sbi.inFlight.map (fun p => p.2.outputs)

/-- How the pins SRDY/, SERR/ and SD15..SD0 end an access: not at all while neither response is asserted, and with bus error
whenever SERR/ is (R172). -/
def busEndOf (srdy serr : Bool) (sd : Word) : Option BusEnd :=
  if serr then some .busError else if srdy then some (.ready sd) else none

end Sys2Proof.Machine
end

