-- ==== Sys2Proof/Machine/Channels.lean ====
section
/-! DEFINITION. The channel commands, FQ_POP, the channel selector, the pacing lines, the Scheduler's grant and the ends of
the Engine's accesses (05_channels.md, 06_scheduling_and_the_transfer_engine.md, 07_faults_and_the_fault_queue.md). -/

namespace Sys2Proof.Machine

/-! ### Channel commands (R86 to R93) -/

/-- The checks of R86 that every channel command makes before its own. -/
def onChannel (f : ChannelId → Channel → Effect) : Effect := fun a s =>
  if s.urgent.mode ≠ .normal then (s, .engineUnavailable)
  else match a.channel with
    | none => (s, .badChannel)
    | some c => f c s.channels[c] a s

/-- The context that CH_START sets (R88); the held record of an IDLE or DONE channel is absent already. -/
def Channel.start (x : Channel) (d : DomainId) (l : Option (Fin 8)) (a : Args) : Channel :=
  { x with
    state := .ready, phase := .fetch, domain := d, priority := a.startPriority, line := l,
    burst := a.startBurst.extractLsb' 0 5, descriptor := a.startDescriptor.setWidth 32, control := 0, count := 1,
    origSource := 0, origDest := 0, remaining := 0, source := 0, dest := 0, next := 0, code := .complete,
    pendingHalt := false, pendingAbort := false, completion := .none }

/-- R87, R88. -/
def chStart : Effect := onChannel fun c x a s =>
  if x.state ≠ .idle ∧ x.state ≠ .done then (s, .badState)
  else match a.startDomain with
    | none => (s, .badDomain)
    | some d =>
      match a.startOk, a.startLine with
      | true, some l =>
        if s.domains[d].state ≠ .opened then (s, .badState)
        else ((s.setChannel c (x.start d l a)).clearDone (doneMask c), .ok)
      | _, _ => (s, .badArgument)

/-- R89. -/
def chHalt : Effect := onChannel fun c x _ s =>
  match x.state with
  | .ready | .waitReq => (s.setChannel c { x with state := .halted }, .ok)
  | .active => (s.setChannel c { x with pendingHalt := true }, .ok)
  | .idle | .halted | .faulted | .faultWait | .done => (s, .badState)

/-- R90, R91. -/
def chContinue : Effect := onChannel fun c x _ s =>
  match x.state with
  | .halted | .faulted => (s.setChannel c { x with state := .ready }, .ok)
  | .idle | .ready | .waitReq | .active | .faultWait | .done => (s, .badState)

/-- R92. -/
def chSkip : Effect := onChannel fun c x _ s =>
  match x.state, x.phase with
  | .halted, .move | .faulted, .move =>
    (s.setChannel c { x with phase := .writeback, code := .skipped, state := .ready }, .ok)
  | .halted, .writeback | .faulted, .writeback => ((s.setChannel c x.advance).markDone c x.control, .ok)
  | _, _ => (s, .badState)

/-- R93. -/
def chAbort : Effect := onChannel fun c x _ s =>
  match x.state with
  | .ready | .waitReq | .halted | .faulted | .faultWait | .done => (s.setChannel c x.abort, .ok)
  | .active => (s.setChannel c { x with pendingAbort := true }, .ok)
  | .idle => (s, .badState)

/-- R126, R127. -/
def fqPop : Effect := fun _ s =>
  if s.urgent.mode ≠ .normal then (s, .engineUnavailable)
  else if s.queue = [] then (s, .ok)
  else (s.popFault, .ok)

/-- R81. -/
def State.writeCsel (s : State) (v : Word) : State :=
  { s with window := { s.window with csel := Fin.ofNat 8 (v.extractLsb' 0 3).toNat } }

/-- CH_START. -/
def execChStart (_hi : Byte) (s : State) : Host.Outcome State Fault Refusal :=
  .next (s.unlessReset (s.command 0x07#8 chStart))

/-- CH_HALT. -/
def execChHalt (_hi : Byte) (s : State) : Host.Outcome State Fault Refusal :=
  .next (s.unlessReset (s.command 0x08#8 chHalt))

/-- CH_CONTINUE. -/
def execChContinue (_hi : Byte) (s : State) : Host.Outcome State Fault Refusal :=
  .next (s.unlessReset (s.command 0x09#8 chContinue))

/-- CH_SKIP. -/
def execChSkip (_hi : Byte) (s : State) : Host.Outcome State Fault Refusal :=
  .next (s.unlessReset (s.command 0x0A#8 chSkip))

/-- CH_ABORT. -/
def execChAbort (_hi : Byte) (s : State) : Host.Outcome State Fault Refusal :=
  .next (s.unlessReset (s.command 0x0B#8 chAbort))

/-- FQ_POP. -/
def execFqPop (_hi : Byte) (s : State) : Host.Outcome State Fault Refusal :=
  .next (s.unlessReset (s.command 0x0C#8 fqPop))

/-- CSEL_WRITE. -/
def execCselWrite (v : Word) (s : State) : Host.Outcome State Fault Refusal :=
  .next (s.unlessReset (s.writeCsel v))

/-! ### Pacing (R85) -/

/-- A pacing line is asserted: its level is seen, and the channels that wait for it become READY (R85). -/
def State.lineRises (s : State) (n : Fin 8) : State :=
  (s.sampleLines (s.pins.preq ||| 1#8 <<< n.val)).wakeLines (1#8 <<< n.val)

/-- LINE_ASSERTED. -/
def execLineAsserted (line : Fin 8) (s : State) : Host.Outcome State Fault Refusal :=
  .next (s.unlessReset (s.lineRises line))

/-! ### The Scheduler (R102, R103) -/

/-- Channel `c` is READY in class `p`. -/
def State.readyIn (s : State) (p : Fin 4) (c : ChannelId) : Bool :=
  s.channels[c].state == .ready && s.channels[c].priority == p

/-- The eight channels counted cyclically upward from the pointer plus 1 (R103). -/
def cyclicFrom (ptr : ChannelId) : List ChannelId := allChannels.map (fun k => ptr + 1 + k)

/-- The first READY channel of a class, counted from its pointer (R103). -/
def State.firstIn (s : State) (p : Fin 4) : Option ChannelId := (cyclicFrom s.pointers[p]).find? (s.readyIn p)

/-- The channel that the Scheduler grants: of the highest class that has a READY channel (R103). -/
def State.grantChoice (s : State) : Option ChannelId := ([3, 2, 1, 0] : List (Fin 4)).findSome? s.firstIn

/-- The conditions of a grant but for a READY channel: the Engine is free, the mode NORMAL, no engine reset in progress
(R103). -/
def State.grantPossible (s : State) : Bool :=
  s.engine.service == .none && s.urgent.mode == .normal && !s.window.resetting

/-- The grant of channel `c`: it becomes ACTIVE, the pointer of its class takes its number, and its service begins (R103,
R107). -/
def State.grantTo (s : State) (c : ChannelId) : State :=
  let x := s.channels[c]
  ({ s.setChannel c { x with state := .active } with
      pointers := s.pointers.set x.priority c }).serviceBegin (.channel c) x.phase

/-- The Scheduler's grant (R103). -/
def State.schedule (s : State) : State :=
  match s.grantPossible, s.grantChoice with
  | true, some c => s.grantTo c
  | _, _ => s

/-- SCHEDULER_GRANT: the pacing lines are sampled where the granted service is a paced move service (R84). -/
def execSchedulerGrant (preq : BitVec 8) (s : State) : Host.Outcome State Fault Refusal :=
  .next (s.unlessReset (s.sampleLines preq).schedule)

/-! ### The ends of the Engine's accesses -/

/-- FETCH_READ_END (R64). -/
def execFetchReadEnd (e : BusEnd) (s : State) : Host.Outcome State Fault Refusal :=
  .next (s.unlessReset (s.accessEnd .engine (s.engine.service == .fetch) (fun t a => t.fetchReadEnd a e)))

/-- BEAT_READ_END (R112). -/
def execBeatReadEnd (e : BusEnd) (s : State) : Host.Outcome State Fault Refusal :=
  .next (s.unlessReset (s.accessEnd .engine (s.engine.service == .move && s.engine.stage == .read)
    (fun t a => t.beatReadEnd a e)))

/-- BEAT_WRITE_END (R113): the pacing lines are sampled before the next beat (R84). -/
def execBeatWriteEnd (e : BusEnd) (preq : BitVec 8) (s : State) : Host.Outcome State Fault Refusal :=
  .next (s.unlessReset (s.accessEnd .engine (s.engine.service == .move && s.engine.stage == .write)
    (fun t _ => (t.sampleLines preq).beatWriteEnd e)))

/-- STATUS_WRITE_END (R70). -/
def execStatusWriteEnd (e : BusEnd) (s : State) : Host.Outcome State Fault Refusal :=
  .next (s.unlessReset (s.accessEnd .engine (s.engine.service == .writeback) (fun t _ => t.statusWriteEnd e)))

end Sys2Proof.Machine
end

