-- ==== Sys2Proof/Machine/Domain.lean ====
section
/-! DEFINITION. DOM_OPEN, DOM_CLOSE and the writes of the table-access registers (01_domains_and_grant_maps.md). -/

namespace Sys2Proof.Machine

/-- DOM_CLOSE finds a channel of the domain that is neither IDLE nor DONE (R13). -/
def State.domainBusy (s : State) (d : DomainId) : Bool :=
  allChannels.any (fun c =>
    let x := s.channels[c]
    x.domain == d && x.state != .idle && x.state != .done)

/-- R10, R11. -/
def domOpen : Effect := fun a s =>
  if s.urgent.mode ≠ .normal then (s, .engineUnavailable)
  else match a.domain with
    | none => (s, .badDomain)
    | some d =>
      let r := s.domains[d]
      if r.state ≠ .closed then (s, .badState)
      else if r.trackWritten ∧ ¬ r.trackUsed then (s, .badArgument)
      else (s.setDomain d { r with state := .opened }, .ok)

/-- R10, R12, R13. -/
def domClose : Effect := fun a s =>
  if s.urgent.mode ≠ .normal then (s, .engineUnavailable)
  else match a.domain with
    | none => (s, .badDomain)
    | some d =>
      if s.domains[d].state ≠ .opened then (s, .badState)
      else if s.domainBusy d then (s, .domainBusy)
      else ((s.invalidateDomain d).setDomain d { s.domains[d] with state := .closed }, .ok)

/-- R5. -/
def State.writeTsel (s : State) (v : Word) : State :=
  { s with window := { s.window with
      tselDomain := Fin.ofNat 16 (v.extractLsb' 0 4).toNat, tselGroup := Fin.ofNat 16 (v.extractLsb' 8 4).toNat } }

/-- The record with a field replaced from the written value (R7). -/
def DomainRecord.write (r : DomainRecord) (f : DomainField) (v : Word) : DomainRecord :=
  match f with
  | .dbl => { r with dirBase := r.dirBase.extractLsb' 9 8 ++ v.extractLsb' 7 9 }
  | .dbh => { r with dirBase := v.extractLsb' 0 8 ++ r.dirBase.extractLsb' 0 9 }
  | .plim => { r with pageLimit := v.extractLsb' 0 11 }
  | .dflag => { r with readOnly := v.getLsbD 0, trackUsed := v.getLsbD 1, trackWritten := v.getLsbD 2 }

/-- R7. -/
def State.writeField (s : State) (f : DomainField) (v : Word) : State :=
  let d := s.window.tselDomain
  match s.domains[d].state with
  | .closed => s.setDomain d (s.domains[d].write f v)
  | .opened => s.lockTable

/-- R8. -/
def State.writeGrants (s : State) (v : Word) : State :=
  let d := s.window.tselDomain
  match s.domains[d].state with
  | .closed => { s with grants := s.grants.set d (s.grants[d].set s.window.tselGroup v) }
  | .opened => s.lockTable

/-- DOM_OPEN. -/
def execDomOpen (_hi : Byte) (s : State) : Host.Outcome State Fault Refusal :=
  .next (s.unlessReset (s.command 0x01#8 domOpen))

/-- DOM_CLOSE. -/
def execDomClose (_hi : Byte) (s : State) : Host.Outcome State Fault Refusal :=
  .next (s.unlessReset (s.command 0x02#8 domClose))

/-- TSEL_WRITE. -/
def execTselWrite (v : Word) (s : State) : Host.Outcome State Fault Refusal :=
  .next (s.unlessReset (s.writeTsel v))

/-- DOMAIN_FIELD_WRITE. -/
def execDomainFieldWrite (f : DomainField) (v : Word) (s : State) : Host.Outcome State Fault Refusal :=
  .next (s.unlessReset (s.writeField f v))

/-- GRANT_WORD_WRITE. -/
def execGrantWordWrite (v : Word) (s : State) : Host.Outcome State Fault Refusal :=
  .next (s.unlessReset (s.writeGrants v))

end Sys2Proof.Machine
end

