-- ==== Sys2Proof/Machine/Translation.lean ====
section
/-! DEFINITION. The invalidation commands, PROBE, and the walker's two events (02_page_tables_and_the_walk.md,
03_the_translation_cache.md). -/

namespace Sys2Proof.Machine

/-- R46, R47. -/
def invAll : Effect := fun _ s => (s.invalidateAll, .ok)

/-- R46, R48. -/
def invDomain : Effect := fun a s =>
  match a.domain with
  | none => (s, .badDomain)
  | some d => (s.invalidateDomain d, .ok)

/-- R46, R49. -/
def invPage : Effect := fun a s =>
  match a.domain with
  | none => (s, .badDomain)
  | some d => if a.vaddrOk then (s.invalidatePage d a.vaddr, .ok) else (s, .badArgument)

/-- The answer of a probe that hits entry `e` (R56). -/
def hitAnswer (e : CacheEntry) (v : VAddr) (a : MemAccess) : ProbeResult :=
  if a.writes && !e.writable then
    { outcome := .writeDenied, address := 0, hit := true, writable := false, writtenKnown := e.writtenKnown }
  else
    { outcome := .translated, address := physical e.frame v, hit := true, writable := e.writable,
      writtenKnown := e.writtenKnown }

/-- The lookup of a probe that has passed its checks: it changes no referenced field; a hit is answered at once, a miss asks
the walker and leaves the Command Unit BUSY (R55 to R57). -/
def State.probeLookup (s : State) (d : DomainId) (v : VAddr) (a : MemAccess) : State :=
  let t := s.cache[setOf (vpnOf v)]
  match hitWay t d (vpnOf v) with
  | some w => s.answerProbe (hitAnswer t[w] v a)
  | none =>
    { s with
      window := { s.window with busy := true }
      walker := { s.walker with probeWaiting := some { domain := d, vaddr := v, access := a } } }

/-- R55. -/
def probe : Effect := fun a s =>
  if s.urgent.mode ≠ .normal then (s, .engineUnavailable)
  else match a.domain with
    | none => (s, .badDomain)
    | some d =>
      match a.vaddrOk, a.probeAccess with
      | true, some m =>
        if s.domains[d].state ≠ .opened then (s, .badState) else (s.probeLookup d a.vaddr m, .ok)
      | _, _ => (s, .badArgument)

/-- INV_ALL. -/
def execInvAll (_hi : Byte) (s : State) : Host.Outcome State Fault Refusal :=
  .next (s.unlessReset (s.command 0x03#8 invAll))

/-- INV_DOMAIN. -/
def execInvDomain (_hi : Byte) (s : State) : Host.Outcome State Fault Refusal :=
  .next (s.unlessReset (s.command 0x04#8 invDomain))

/-- INV_PAGE. -/
def execInvPage (_hi : Byte) (s : State) : Host.Outcome State Fault Refusal :=
  .next (s.unlessReset (s.command 0x05#8 invPage))

/-- PROBE. -/
def execProbe (_hi : Byte) (s : State) : Host.Outcome State Fault Refusal :=
  .next (s.unlessReset (s.command 0x06#8 probe))

/-- The walker may start a walk: it is IDLE, the mode NORMAL and no engine reset in progress (R34, R36). -/
def State.walkMayStart (s : State) : Bool :=
  !s.walker.busy && s.urgent.mode == .normal && !s.window.resetting

/-- WALK_START (R34): the walk's first access is pending, or the walk is over; an OWNER without an access in flight goes on
accordingly (R170, R173). -/
def execWalkStart (s : State) : Host.Outcome State Fault Refusal :=
  .next (s.unlessReset (if s.walkMayStart then s.takeRequest.settleBus else s))

/-- WALK_ACCESS_END (R32). -/
def execWalkAccessEnd (e : BusEnd) (s : State) : Host.Outcome State Fault Refusal :=
  .next (s.unlessReset (s.accessEnd .walker true (fun t a => t.walkAccessEnd a e)))

end Sys2Proof.Machine
end

