-- ==== Sys2Proof/Machine/UrgentEvents.lean ====
section
/-! DEFINITION. The urgent commands, the URQ/ pin, the bases, the events of the save and the restore, and the resets' events
(08_urgent_service.md, 09_restore_and_the_locked_mode.md). -/

namespace Sys2Proof.Machine

/-- R138. -/
def urgentReq : Effect := fun _ s => (s.urgentRequest .command, .ok)

/-- R152. -/
def resume : Effect := fun _ s =>
  if s.urgent.mode ≠ .urgentHold then (s, .badState) else (s.rerunOrRestore, .ok)

/-- What LOCK_CLEAR makes of a channel: IDLE, CLEARED, no held record, no pending flag (R167). -/
def Channel.sweep (x : Channel) : Channel :=
  { x with state := .idle, completion := .cleared, held := none, pendingHalt := false, pendingAbort := false }

/-- R167. -/
def lockClear : Effect := fun _ s =>
  if s.urgent.mode ≠ .locked then (s, .badState)
  else
    let t := s.mapChannels (fun _ x => x.sweep)
    ({ t with urgent := { t.urgent with mode := .normal } }, .ok)

/-- URQ/ falls (R137). An ARMED detector takes the fall as a request with source LINE and is then DISARMED; while an engine
reset is in progress it makes no request and stays ARMED; a DISARMED detector makes none. -/
def State.urqFalls (s : State) : State :=
  let t := { s with pins := { s.pins with urqHigh := false } }
  if s.urgent.armed ∧ ¬ s.window.resetting then
    ({ t with urgent := { t.urgent with armed := false } }).urgentRequest .line
  else t

/-- URQ/ is seen high: the detector is ARMED (R137). -/
def State.urqRises (s : State) : State :=
  { s with pins := { s.pins with urqHigh := true }, urgent := { s.urgent with armed := true } }

/-- USBL (R153). -/
def State.writeSaveLow (s : State) (v : Word) : State :=
  if s.urgent.mode = .normal then { s with urgent := { s.urgent with saveStaging := v } } else s.lockTable

/-- USBH (R153): the written bits are bits 31..16, the staging bits 15..0. -/
def State.writeSaveHigh (s : State) (v : Word) : State :=
  let a : Long := v ++ s.urgent.saveStaging
  if s.urgent.mode = .normal ∧ relocationOk a then { s with urgent := { s.urgent with saveBase := physicalOf a } }
  else s.lockTable

/-- ULBL (R154). -/
def State.writeListLow (s : State) (v : Word) : State :=
  if s.urgent.mode = .normal then { s with urgent := { s.urgent with listStaging := v } } else s.lockTable

/-- ULBH (R154): bits 15..8 of the written value are ignored. -/
def State.writeListHigh (s : State) (v : Word) : State :=
  if s.urgent.mode = .normal then
    { s with urgent := { s.urgent with listBase := lowByte v ++ s.urgent.listStaging } }
  else s.lockTable

/-- The drain has ended: the Engine is free, the walker IDLE, no engine reset in progress (R140). -/
def State.drained (s : State) : Bool :=
  s.urgent.mode == .urgentEntry && s.urgent.step == .drain && s.engine.service == .none && !s.walker.busy
    && !s.window.resetting

/-- URGENT_REQ. -/
def execUrgentReq (_hi : Byte) (s : State) : Host.Outcome State Fault Refusal :=
  .next (s.unlessReset (s.command 0x0D#8 urgentReq))

/-- RESUME. -/
def execResume (_hi : Byte) (s : State) : Host.Outcome State Fault Refusal :=
  .next (s.unlessReset (s.command 0x0E#8 resume))

/-- LOCK_CLEAR. -/
def execLockClear (_hi : Byte) (s : State) : Host.Outcome State Fault Refusal :=
  .next (s.unlessReset (s.command 0x0F#8 lockClear))

/-- URQ_REQUEST (R137). -/
def execUrqRequest (s : State) : Host.Outcome State Fault Refusal := .next (s.unlessReset s.urqFalls)

/-- URQ_ARM (R137). -/
def execUrqArm (s : State) : Host.Outcome State Fault Refusal := .next (s.unlessReset s.urqRises)

/-- SAVE_BASE_LOW_WRITE. -/
def execSaveBaseLowWrite (v : Word) (s : State) : Host.Outcome State Fault Refusal :=
  .next (s.unlessReset (s.writeSaveLow v))

/-- SAVE_BASE_HIGH_WRITE. -/
def execSaveBaseHighWrite (v : Word) (s : State) : Host.Outcome State Fault Refusal :=
  .next (s.unlessReset (s.writeSaveHigh v))

/-- LIST_BASE_LOW_WRITE. -/
def execListBaseLowWrite (v : Word) (s : State) : Host.Outcome State Fault Refusal :=
  .next (s.unlessReset (s.writeListLow v))

/-- LIST_BASE_HIGH_WRITE. -/
def execListBaseHighWrite (v : Word) (s : State) : Host.Outcome State Fault Refusal :=
  .next (s.unlessReset (s.writeListHigh v))

/-- SAVE_BEGIN (R140, R142). -/
def execSaveBegin (s : State) : Host.Outcome State Fault Refusal :=
  .next (s.unlessReset (if s.drained then s.saveBegin else s))

/-- SAVE_WRITE_END (R142, R144, R145). -/
def execSaveWriteEnd (e : BusEnd) (s : State) : Host.Outcome State Fault Refusal :=
  .next (s.unlessReset (s.accessEnd .urgent (s.urgent.mode == .urgentEntry && s.urgent.step == .save)
    (fun t _ => t.saveWriteEnd e)))

/-- RESTORE_READ_END (R157 to R165): the pacing lines are sampled for the channels that the restore leaves in WAIT_REQ
(R85). -/
def execRestoreReadEnd (e : BusEnd) (preq : BitVec 8) (s : State) : Host.Outcome State Fault Refusal :=
  .next (s.unlessReset (s.accessEnd .urgent (s.urgent.mode == .urgentRestore)
    (fun t a => (t.sampleLines preq).restoreReadEnd a e)))

/-- ENGINE_RESET (R179). -/
def execEngineReset (s : State) : Host.Outcome State Fault Refusal := .next (s.unlessReset s.beginEngineReset)

/-- ENGINE_RESET_COMPLETE (R179): without an engine reset in progress nothing completes. -/
def execEngineResetComplete (s : State) : Host.Outcome State Fault Refusal :=
  .next (s.unlessReset (if s.window.resetting then s.completeEngineReset else s))

/-- HARD_RESET (R183). -/
def execHardReset (s : State) : Host.Outcome State Fault Refusal := .next s.assertReset

/-- RST_RELEASE (R169). -/
def execRstRelease (s : State) : Host.Outcome State Fault Refusal := .next s.releaseReset

end Sys2Proof.Machine
end

