-- ==== Sys2Proof/Machine/Window.lean ====
section
/-! DEFINITION. The register window: the writes that it owns, the register map for writes of any register, and the reads of
every register (11_register_window_and_command_unit.md). -/

namespace Sys2Proof.Machine

/-! ### Writes that the window owns -/

/-- WFLG: bits 0 and 1 written 1 clear TABLE_LOCKED and REFUSED (R178). -/
def State.writeWflg (s : State) (v : Word) : State :=
  { s with window := { s.window with
      tableLocked := s.window.tableLocked && !v.getLsbD 0, refused := s.window.refused && !v.getLsbD 1 } }

/-- DONE (R180). -/
def State.writeDone (s : State) (v : Word) : State := s.clearDone (lowByte v)

/-- ICAUSE: bits 2, 3 and 4 written 1 clear URGENT, LOCK and CMD (R181). -/
def State.writeIcause (s : State) (v : Word) : State :=
  { s with window := { s.window with
      urgentCause := s.window.urgentCause && !v.getLsbD 2, lockCause := s.window.lockCause && !v.getLsbD 3,
      cmdCause := s.window.cmdCause && !v.getLsbD 4 } }

/-- IENA (R182). -/
def State.writeIena (s : State) (v : Word) : State :=
  { s with window := { s.window with iena := v.extractLsb' 0 5 } }

/-- ARG0 to ARG3 (R176). -/
def Args.write (a : Args) (n : Fin 4) (v : Word) : Args :=
  match n with
  | 0 => { a with arg0 := v }
  | 1 => { a with arg1 := v }
  | 2 => { a with arg2 := v }
  | 3 => { a with arg3 := v }

/-- A write of ARG0 to ARG3 (R176). -/
def State.writeArg (s : State) (n : Fin 4) (v : Word) : State :=
  { s with window := { s.window with args := s.window.args.write n v } }

/-! ### The register map -/

/-- The effect of a command code: a code that names no command gives BAD_COMMAND and reaches no block (the command table of
11.2, R176). -/
def effectOf (code : Byte) : Effect :=
  match code.toNat with
  | 0x01 => domOpen
  | 0x02 => domClose
  | 0x03 => invAll
  | 0x04 => invDomain
  | 0x05 => invPage
  | 0x06 => probe
  | 0x07 => chStart
  | 0x08 => chHalt
  | 0x09 => chContinue
  | 0x0A => chSkip
  | 0x0B => chAbort
  | 0x0C => fqPop
  | 0x0D => urgentReq
  | 0x0E => resume
  | 0x0F => lockClear
  | _ => fun _ s => (s, .badCommand)

/-- A write of `v` to CMD (R176). -/
def State.writeCmd (s : State) (v : Word) : State := s.command (lowByte v) (effectOf (lowByte v))

/-- A write of `v` to CTRL: any value but 5AA5H is ignored (R179). -/
def State.writeCtrl (s : State) (v : Word) : State :=
  if v = Config.engineResetKey then s.beginEngineReset else s

/-- A host write of `v` to the register at offset `2 * reg` (the register map of 11.1, R175). Writes to read-only registers
and to unassigned offsets are ignored. -/
def State.writeReg (s : State) (reg : BitVec 6) (v : Word) : State :=
  match 2 * reg.toNat with
  | 0x02 => s.writeCtrl v
  | 0x04 => s.writeCmd v
  | 0x08 => s.writeArg 0 v
  | 0x0A => s.writeArg 1 v
  | 0x0C => s.writeArg 2 v
  | 0x0E => s.writeArg 3 v
  | 0x10 => s.writeIcause v
  | 0x12 => s.writeIena v
  | 0x14 => s.writeWflg v
  | 0x16 => s.writeDone v
  | 0x20 => s.writeTsel v
  | 0x22 => s.writeField .dbl v
  | 0x24 => s.writeField .dbh v
  | 0x26 => s.writeField .plim v
  | 0x28 => s.writeField .dflag v
  | 0x2C => s.writeGrants v
  | 0x38 => s.writeCsel v
  | 0x6C => s.writeSaveLow v
  | 0x6E => s.writeSaveHigh v
  | 0x70 => s.writeListLow v
  | 0x72 => s.writeListHigh v
  | _ => s

/-! ### Reads -/

/-- PINF (section 3.6). -/
def ProbeResult.info (r : ProbeResult) : Word := 0#13 ++ bit r.writtenKnown ++ bit r.writable ++ bit r.hit

/-- CSTA (R81). -/
def Channel.statusView (x : Channel) : Word :=
  0#1 ++ bit x.held.isSome ++ bit x.pendingAbort ++ bit x.pendingHalt ++ 0#2 ++ x.completion.bits ++ x.code.bits
    ++ x.phase.bits ++ 0#1 ++ x.state.bits

/-- CBND (R81). -/
def Channel.bindingView (x : Channel) : Word :=
  0#4 ++ lineBits x.line ++ 0#2 ++ BitVec.ofNat 2 x.priority.val ++ BitVec.ofNat 4 x.domain.val

/-- CCTL (R81). -/
def Channel.controlView (x : Channel) : Word := 0#3 ++ x.burst ++ x.control

/-- Bits 21..16 of a long, in bits 5..0 (R81). -/
def high6 (l : Long) : Word := 0#10 ++ l.extractLsb' 16 6

/-- FQK (R129). -/
def FaultRecord.kindView (r : FaultRecord) : Word := 0#6 ++ r.phase.bits ++ 0#1 ++ r.access.bits ++ r.kind.bits

/-- FQC (R129). -/
def FaultRecord.channelView (r : FaultRecord) : Word :=
  0#8 ++ BitVec.ofNat 4 r.domain.val ++ 0#1 ++ BitVec.ofNat 3 r.channel.val

/-- A view of the head record, 0 when the queue is empty (R129). -/
def State.headView (s : State) (f : FaultRecord → Word) : Word :=
  match s.queue with
  | [] => 0
  | r :: _ => f r

/-- USTA (R150). -/
def Urgent.statusView (u : Urgent) : Word :=
  0#2 ++ u.u.phase.bits ++ 0#2 ++ u.fault.bits ++ causeBits u.entryCause ++ 0#1 ++ latchSourceBit u.latch
    ++ bit u.latch.isSome ++ u.mode.bits

/-- ULCK (R162). -/
def LockCause.view (l : LockCause) : Word := l.place ++ 0#4 ++ l.kind.bits

/-- WFLG (R178). -/
def Window.flagsView (w : Window) : Word :=
  0#6 ++ bit w.resetting ++ bit w.busy ++ 0#6 ++ bit w.refused ++ bit w.tableLocked

/-- DFLAG (section 1.3). -/
def DomainRecord.flagsView (r : DomainRecord) : Word := 0#13 ++ bit r.trackWritten ++ bit r.trackUsed ++ bit r.readOnly

/-- The address bits 23..16 in bits 7..0. -/
def high8 (a : PAddr) : Word := 0#8 ++ a.extractLsb' 16 8

/-- The content of the register at offset `2 * reg` (the register map of 11.1, R6, R81, R129, R150, R153, R154, R162, R175). -/
def State.readReg (s : State) (reg : BitVec 6) : Word :=
  let d := s.domains[s.window.tselDomain]
  let x := s.channels[s.window.csel]
  match 2 * reg.toNat with
  | 0x00 => Config.identity
  | 0x04 => s.window.cmd.setWidth 16
  | 0x06 => s.window.res.bits.setWidth 16
  | 0x08 => s.window.args.arg0
  | 0x0A => s.window.args.arg1
  | 0x0C => s.window.args.arg2
  | 0x0E => s.window.args.arg3
  | 0x10 => s.causes.setWidth 16
  | 0x12 => s.window.iena.setWidth 16
  | 0x14 => s.window.flagsView
  | 0x16 => s.window.done.setWidth 16
  | 0x20 => 0#4 ++ BitVec.ofNat 4 s.window.tselGroup.val ++ 0#4 ++ BitVec.ofNat 4 s.window.tselDomain.val
  | 0x22 => d.dirBase.extractLsb' 0 9 ++ 0#7
  | 0x24 => 0#8 ++ d.dirBase.extractLsb' 9 8
  | 0x26 => d.pageLimit.setWidth 16
  | 0x28 => d.flagsView
  | 0x2A => (bit (d.state == .opened)).setWidth 16
  | 0x2C => s.grants[s.window.tselDomain][s.window.tselGroup]
  | 0x30 => s.window.probe.outcome.bits.setWidth 16
  | 0x32 => s.window.probe.address.extractLsb' 0 16
  | 0x34 => high8 s.window.probe.address
  | 0x36 => s.window.probe.info
  | 0x38 => BitVec.ofNat 16 s.window.csel.val
  | 0x3A => x.statusView
  | 0x3C => x.bindingView
  | 0x3E => x.controlView
  | 0x40 => lowWord x.descriptor
  | 0x42 => high6 x.descriptor
  | 0x44 => x.count
  | 0x46 => x.remaining
  | 0x48 => lowWord x.source
  | 0x4A => lowWord x.dest
  | 0x4C => lowWord x.origSource
  | 0x4E => lowWord x.origDest
  | 0x50 => BitVec.ofNat 16 s.queue.length
  | 0x52 => s.headView FaultRecord.kindView
  | 0x54 => s.headView FaultRecord.channelView
  | 0x56 => s.headView (fun r => r.address.extractLsb' 0 16)
  | 0x58 => s.headView (fun r => 0#10 ++ r.address.extractLsb' 16 6)
  | 0x5A => s.headView (fun r => r.descriptor.extractLsb' 0 16)
  | 0x5C => s.headView (fun r => 0#10 ++ r.descriptor.extractLsb' 16 6)
  | 0x60 => s.urgent.statusView
  | 0x62 => lowWord s.urgent.u.position
  | 0x64 => high8 (physicalOf s.urgent.u.position)
  | 0x66 => s.urgent.u.remaining
  | 0x68 => s.urgent.lock.view
  | 0x6C => s.urgent.saveBase.extractLsb' 0 16
  | 0x6E => high8 s.urgent.saveBase
  | 0x70 => s.urgent.listBase.extractLsb' 0 16
  | 0x72 => high8 s.urgent.listBase
  | _ => 0

/-- What a host read of the register at offset `2 * reg` drives onto WD15 to WD0: the register's content, and nothing while
RST/ is asserted (R175). A read changes no state. -/
def State.windowRead (s : State) (reg : BitVec 6) : Option Word := if s.pins.rst then none else some (s.readReg reg)

/-! ### Meanings -/

/-- UNKNOWN_COMMAND_CODE (R176). -/
def execUnknownCommandCode (v : Word) (s : State) : Host.Outcome State Fault Refusal :=
  .next (s.unlessReset (s.writeCmd v))

/-- WFLG_WRITE. -/
def execWflgWrite (v : Word) (s : State) : Host.Outcome State Fault Refusal :=
  .next (s.unlessReset (s.writeWflg v))

/-- DONE_FLAG_CLEAR. -/
def execDoneFlagClear (v : Word) (s : State) : Host.Outcome State Fault Refusal :=
  .next (s.unlessReset (s.writeDone v))

/-- ICAUSE_WRITE. -/
def execIcauseWrite (v : Word) (s : State) : Host.Outcome State Fault Refusal :=
  .next (s.unlessReset (s.writeIcause v))

/-- IENA_WRITE. -/
def execIenaWrite (v : Word) (s : State) : Host.Outcome State Fault Refusal :=
  .next (s.unlessReset (s.writeIena v))

/-- REGISTER_WRITE (R175). -/
def execRegisterWrite (reg : BitVec 6) (v : Word) (s : State) : Host.Outcome State Fault Refusal :=
  .next (s.unlessReset (s.writeReg reg v))

end Sys2Proof.Machine
end

