-- ==== Sys2Proof/Machine/Dispatch.lean ====
section
/-! DEFINITION. The dispatch: one arm per command, one meaning per arm. -/

namespace Sys2Proof.Machine

/-- The effect of a command on everything but the queue. -/
def exec (i : Instr) (s : State) : Host.Outcome State Fault Refusal :=
  match i with
  | .domOpen hi => Sys2Proof.Machine.execDomOpen hi s
  | .domClose hi => Sys2Proof.Machine.execDomClose hi s
  | .invAll hi => Sys2Proof.Machine.execInvAll hi s
  | .invDomain hi => Sys2Proof.Machine.execInvDomain hi s
  | .invPage hi => Sys2Proof.Machine.execInvPage hi s
  | .probe hi => Sys2Proof.Machine.execProbe hi s
  | .chStart hi => Sys2Proof.Machine.execChStart hi s
  | .chHalt hi => Sys2Proof.Machine.execChHalt hi s
  | .chContinue hi => Sys2Proof.Machine.execChContinue hi s
  | .chSkip hi => Sys2Proof.Machine.execChSkip hi s
  | .chAbort hi => Sys2Proof.Machine.execChAbort hi s
  | .fqPop hi => Sys2Proof.Machine.execFqPop hi s
  | .urgentReq hi => Sys2Proof.Machine.execUrgentReq hi s
  | .resume hi => Sys2Proof.Machine.execResume hi s
  | .lockClear hi => Sys2Proof.Machine.execLockClear hi s
  | .unknownCommandCode v => Sys2Proof.Machine.execUnknownCommandCode v s
  | .engineReset => Sys2Proof.Machine.execEngineReset s
  | .engineResetComplete => Sys2Proof.Machine.execEngineResetComplete s
  | .tselWrite v => Sys2Proof.Machine.execTselWrite v s
  | .domainFieldWrite f v => Sys2Proof.Machine.execDomainFieldWrite f v s
  | .grantWordWrite v => Sys2Proof.Machine.execGrantWordWrite v s
  | .cselWrite v => Sys2Proof.Machine.execCselWrite v s
  | .wflgWrite v => Sys2Proof.Machine.execWflgWrite v s
  | .doneFlagClear v => Sys2Proof.Machine.execDoneFlagClear v s
  | .icauseWrite v => Sys2Proof.Machine.execIcauseWrite v s
  | .ienaWrite v => Sys2Proof.Machine.execIenaWrite v s
  | .saveBaseLowWrite v => Sys2Proof.Machine.execSaveBaseLowWrite v s
  | .saveBaseHighWrite v => Sys2Proof.Machine.execSaveBaseHighWrite v s
  | .listBaseLowWrite v => Sys2Proof.Machine.execListBaseLowWrite v s
  | .listBaseHighWrite v => Sys2Proof.Machine.execListBaseHighWrite v s
  | .registerWrite reg v => Sys2Proof.Machine.execRegisterWrite reg v s
  | .hardReset => Sys2Proof.Machine.execHardReset s
  | .rstRelease => Sys2Proof.Machine.execRstRelease s
  | .urqRequest => Sys2Proof.Machine.execUrqRequest s
  | .urqArm => Sys2Proof.Machine.execUrqArm s
  | .lineAsserted line => Sys2Proof.Machine.execLineAsserted line s
  | .schedulerGrant preq => Sys2Proof.Machine.execSchedulerGrant preq s
  | .walkStart => Sys2Proof.Machine.execWalkStart s
  | .walkAccessEnd e => Sys2Proof.Machine.execWalkAccessEnd e s
  | .fetchReadEnd e => Sys2Proof.Machine.execFetchReadEnd e s
  | .beatReadEnd e => Sys2Proof.Machine.execBeatReadEnd e s
  | .beatWriteEnd e preq => Sys2Proof.Machine.execBeatWriteEnd e preq s
  | .statusWriteEnd e => Sys2Proof.Machine.execStatusWriteEnd e s
  | .saveBegin => Sys2Proof.Machine.execSaveBegin s
  | .saveWriteEnd e => Sys2Proof.Machine.execSaveWriteEnd e s
  | .restoreReadEnd e preq => Sys2Proof.Machine.execRestoreReadEnd e preq s
  | .busGrant => Sys2Proof.Machine.execBusGrant s
  | .busGrantDeasserted => Sys2Proof.Machine.execBusGrantDeasserted s

end Sys2Proof.Machine
end

