-- ==== Sys2Proof/Safety.lean ====
section
/-! DEFINITION. The terms in which statements about the part are made: when it takes a command, what a command that is taken
records, and the laws that every step keeps. -/

namespace Sys2Proof.Machine

/-! ### Conditions and shapes of a step -/

/-- RST/ is not asserted. -/
abbrev State.Running (s : State) : Prop := s.pins.rst = false

/-- A write to CMD is taken (R176): the Command Unit is IDLE and no engine reset is in progress. -/
abbrev State.TakesCommands (s : State) : Prop :=
  s.pins.rst = false ∧ s.window.busy = false ∧ s.window.resetting = false

/-- Channel commands are taken: also the mode is NORMAL and ARG0 names channel `c` (R86). -/
abbrev State.TakesChannel (s : State) (c : ChannelId) : Prop :=
  s.TakesCommands ∧ s.urgent.mode = .normal ∧ s.window.args.arg0.toNat = c.val

/-- The command of this code is taken with result `r`: CMD, the latched arguments and RES (R176). -/
def State.recorded (s : State) (code : Byte) (r : Result) : State :=
  { s with window := { s.window with cmd := code, latched := some s.window.args, res := r } }

/-- An access of slot `r` is in flight and its end is handed to its requester: no engine reset is in progress (R172, R174). -/
abbrev State.Carrying (s : State) (r : Slot) (a : Access) : Prop :=
  s.pins.rst = false ∧ s.window.resetting = false ∧ s.sbi.inFlight = some (r, a)

/-- The SBI when the access in flight has ended. -/
def Sbi.ended (b : Sbi) : Sbi := { b with inFlight := none }

/-- The Engine serves `w` with service `v`. -/
abbrev State.Serving (s : State) (w : Server) (v : Service) : Prop := s.engine.server = w ∧ s.engine.service = v

/-- Neither pending flag of channel `c` is set. -/
abbrev State.NoPending (s : State) (c : ChannelId) : Prop :=
  s.channels[c].pendingHalt = false ∧ s.channels[c].pendingAbort = false

/-- What an invalidation of the entries in `m` does to the cache (section 3.4). -/
def Invalidated (s t : State) (m : Fin 16 → CacheEntry → Bool) : Prop :=
  ∀ (i : Fin 16) (w : Fin 4), t.cache[i][w] =
    if m i s.cache[i][w] then { s.cache[i][w] with valid := false, referenced := false } else s.cache[i][w]

/-- The context that a service leaves, ending in `st`, with R95 applied: a pending abort makes it IDLE with ABORTED; a pending
halt stops a channel that would be READY or WAIT_REQ; both flags are cleared. -/
def Channel.afterService (x : Channel) (st : ChannelState) : Channel :=
  if x.pendingAbort = true then
    { x with state := .idle, completion := .aborted, held := none, pendingHalt := false, pendingAbort := false }
  else
    { x with
      state := if x.pendingHalt = true ∧ (st = .ready ∨ st = .waitReq) then .halted else st
      pendingHalt := false, pendingAbort := false }

/-- The fault record of the Engine for channel `c` is appended where the queue has room, and the channel is FAULTED;
otherwise it is held and the channel is in FAULT_WAIT (R123, R124). Then a pending abort makes the channel IDLE with ABORTED
and discards a held record, and a pending halt is dropped (R96). The rest of its context stands. -/
def Reported (s t : State) (c : ChannelId) (r : FaultRecord) : Prop :=
  let x := s.channels[c]
  let room : Prop := s.queue.length < 12
  t.queue = (if room then s.queue ++ [r] else s.queue)
  ∧ t.channels = s.channels.set c (
      if x.pendingAbort = true then
        { x with state := .idle, completion := .aborted, held := none, pendingHalt := false, pendingAbort := false }
      else if room then { x with state := .faulted, pendingHalt := false, pendingAbort := false }
      else { x with state := .faultWait, held := some r, pendingHalt := false, pendingAbort := false })

/-- The record that channel `c` makes of a fault (R114). -/
def recordOf (s : State) (c : ChannelId) (k : FaultKind) (a : FaultAccess) (addr : BitVec 22) : FaultRecord :=
  { channel := c, domain := s.channels[c].domain, kind := k, access := a, address := addr,
    descriptor := s.channels[c].descriptor.extractLsb' 0 22, phase := s.channels[c].phase }

/-- The datum of a FILL: its pattern, of the element's width (R63). -/
def fillPattern (e : Element) : Word :=
  if e.control.getLsbD 2 = true then e.source.extractLsb' 0 16 else (e.source.extractLsb' 0 8).setWidth 16

/-- The first access of a beat of U with element `e`: the read of its physical source or of its port, or for a FILL the write
of the pattern at its physical destination (R63, R112, R118, R147). -/
def urgentBeatAccess (e : Element) : Access :=
  let width : Width := if e.control.getLsbD 2 = true then .word else .byte
  if e.control.toNat % 4 = 1 then
    { space := .port, width := width, address := (e.source.extractLsb' 0 8).setWidth 24, write := none }
  else if e.control.toNat % 4 = 3 then
    { space := .memory, width := width, address := e.dest.extractLsb' 0 24, write := some (fillPattern e) }
  else { space := .memory, width := width, address := e.source.extractLsb' 0 24, write := none }

/-- The Engine as that access is issued: in the read, or for a FILL in the write with the pattern as its datum; both sides at
bits 23 to 0 of the element's own addresses, where the write that follows a read goes to (R75, R112, R118). That a port side
holds such an address too, where it plays no part, is the model's choice (log entry 17). -/
def urgentBeatEngine (b : Engine) (e : Element) : Engine :=
  let fill : Prop := e.control.toNat % 4 = 3
  { b with
    stage := if fill then .write else .read
    readAt := some (e.source.extractLsb' 0 24), writeAt := some (e.dest.extractLsb' 0 24)
    datum := if fill then some (fillPattern e) else none }

/-- Domain `d` is granted the ports of an access of this width at port `p` (R4). -/
abbrev State.PortsGranted (s : State) (d : DomainId) (w : Width) (p : Port) : Prop :=
  s.portGranted d p = true ∧ (w = .word → s.portGranted d (p + 1) = true)

/-! ### How a lookup and a beat of a channel go on

Each of these says what the outcome `o` of a step is, where the step has brought the part to `g` and the action of channel `c`,
which the Engine serves, stands at the check that the name says. No engine reset is in progress. The flag `ends` says that the
step has ended an access, so that the SBI goes on; a grant leaves the SBI as it is but for the access that it hands over. -/

/-- The SBI at the end of such a step (R170, R173). -/
def Sbi.goesOn (ends : Bool) (b : Sbi) : Sbi := if ends = true then b.settle else b

/-- The action asks the walker. In NORMAL its request waits there for WALK_START, an OWNER with its grant keeping the bus for
an IDLE walker (R34, R170; log entry 3); in any other mode the service ends READY (R36, R117). -/
def AsksWalker (o : Host.Outcome State Fault Refusal) (ends : Bool) (g : State) (c : ChannelId) (v : VAddr)
    (a : MemAccess) : Prop :=
  (g.urgent.mode = .normal → o = .next { g with
    walker := { g.walker with engineWaiting := some { domain := g.channels[c].domain, vaddr := v, access := a } }
    sbi :=
      if g.walker.state = .idle ∧ g.sbi.granted = true ∧ g.sbi.anyPending = false then g.sbi else g.sbi.goesOn ends })
  ∧ (g.urgent.mode ≠ .normal → o = .next { g with
    engine := Engine.free, sbi := g.sbi.goesOn ends, channels := g.channels.set c (g.channels[c].afterService .ready) })

/-- The check fails: the action issues no access and the service ends in a fault record (R71, R114). -/
def CheckFails (o : Host.Outcome State Fault Refusal) (ends : Bool) (g : State) (c : ChannelId) (k : FaultKind)
    (a : FaultAccess) (addr : BitVec 22) : Prop :=
  ∃ t, o = .next t ∧ Reported g t c (recordOf g c k a addr)
    ∧ t = { g with engine := Engine.free, sbi := g.sbi.goesOn ends, queue := t.queue, channels := t.channels }

/-- Address `v` is looked up for access `a`. A miss asks the walker, and so does a hit for a write or writeback whose Written
bit a walk has to set; a write or writeback of a read-only page fails with fault access `f`; otherwise the action goes on
with the physical address, the way marked (R30, R40 to R42, R44). -/
def LookedUp (o : Host.Outcome State Fault Refusal) (ends : Bool) (g : State) (c : ChannelId) (v : VAddr) (a : MemAccess)
    (f : FaultAccess) (goes : State → PAddr → Prop) : Prop :=
  let d := g.channels[c].domain
  let i := setOf (vpnOf v)
  let writes : Prop := a = .write ∨ a = .writeback
  (hitWay g.cache[i] d (vpnOf v) = none → AsksWalker o ends g c v a)
  ∧ ∀ w : Fin 4, hitWay g.cache[i] d (vpnOf v) = some w →
    let e := g.cache[i][w]
    let h := g.touch i w
    let known : Prop := e.writtenKnown = true ∨ g.domains[d].trackWritten = false
    ((writes → e.writable = true ∧ known) → goes h (e.frame ++ v.extractLsb' 0 11))
    ∧ (writes → e.writable = false → CheckFails o ends h c .writeDenied f v)
    ∧ (writes → e.writable = true → ¬ known → AsksWalker o ends h c v a)

/-- Every check has passed: the beat's first access is issued, the read of a COPY or EMIT at its read translation, the port
read of an INGEST, the write of the pattern of a FILL at its write translation (R63, R112, R171). -/
def FirstAccessIssued (o : Host.Outcome State Fault Refusal) (ends : Bool) (g : State) (c : ChannelId) : Prop :=
  let x := g.channels[c]
  let kind := x.control.toNat % 4
  let width : Width := if x.control.getLsbD 2 = true then .word else .byte
  let issued (e : Engine) (a : Access) : Prop :=
    o = .next { g with engine := e, sbi := (g.sbi.handOver .engine a).goesOn ends }
  (∀ p : PAddr, kind = 0 ∨ kind = 2 → g.engine.readAt = some p →
    issued { g.engine with stage := .read } { space := .memory, width := width, address := p, write := none })
  ∧ (kind = 1 → issued { g.engine with stage := .read }
      { space := .port, width := width, address := (x.source.extractLsb' 0 8).setWidth 24, write := none })
  ∧ ∀ p : PAddr, kind = 3 → g.engine.writeAt = some p →
      issued { g.engine with stage := .write, datum := some (fillPattern x.element) }
        { space := .memory, width := width, address := p, write := some (fillPattern x.element) }

/-- The destination of a COPY, INGEST or FILL is looked up for a write, the last check before the first access (R109, R110). -/
def WriteSideLookedUp (o : Host.Outcome State Fault Refusal) (ends : Bool) (g : State) (c : ChannelId) : Prop :=
  LookedUp o ends g c (g.channels[c].dest.extractLsb' 0 22) .write .write
    (fun h p => FirstAccessIssued o ends { h with engine := { h.engine with writeAt := some p } } c)

/-- The read side of a COPY or EMIT has its translation: a COPY looks its destination up, and an EMIT finds its destination
port granted or not (R109, R111). -/
def ReadSideAnswered (o : Host.Outcome State Fault Refusal) (ends : Bool) (g : State) (c : ChannelId) : Prop :=
  let x := g.channels[c]
  let p : Port := x.dest.extractLsb' 0 8
  let granted : Prop := g.PortsGranted x.domain (if x.control.getLsbD 2 = true then .word else .byte) p
  (x.control.toNat % 4 = 0 → WriteSideLookedUp o ends g c)
  ∧ (x.control.toNat % 4 = 2 →
    (granted → FirstAccessIssued o ends g c) ∧ (¬ granted → CheckFails o ends g c .portDenied .portWrite (p.setWidth 22)))

/-- A beat begins with the checks of its kind, in their order: a COPY's or EMIT's source is looked up for a read, an INGEST's
source port is found granted or not, and a FILL begins with its destination (R109 to R111). -/
def BeatChecked (o : Host.Outcome State Fault Refusal) (ends : Bool) (g : State) (c : ChannelId) : Prop :=
  let x := g.channels[c]
  let kind := x.control.toNat % 4
  let p : Port := x.source.extractLsb' 0 8
  let granted : Prop := g.PortsGranted x.domain (if x.control.getLsbD 2 = true then .word else .byte) p
  (kind = 0 ∨ kind = 2 →
    LookedUp o ends g c (x.source.extractLsb' 0 22) .read .read
      (fun h p => ReadSideAnswered o ends { h with engine := { h.engine with readAt := some p } } c))
  ∧ (kind = 1 →
    (granted → WriteSideLookedUp o ends g c) ∧ (¬ granted → CheckFails o ends g c .portDenied .portRead (p.setWidth 22)))
  ∧ (kind = 3 → WriteSideLookedUp o ends g c)

/-! ### The laws of the RW47 -/

/-- Law 3: in no set of the cache are all four referenced flags set (R44). -/
def MarksLaw (s : State) : Prop := ∀ i : Fin 16, ∃ w : Fin 4, s.cache[i][w].referenced = false

/-- Law 1, with the placement of R39: a valid entry stands in the set of its page, and no two valid entries of a set hold the
same domain and page (R43). -/
def TagsLaw (s : State) : Prop :=
  (∀ (i : Fin 16) (w : Fin 4), s.cache[i][w].valid = true → setOf s.cache[i][w].vpn = i)
  ∧ ∀ (i : Fin 16) (w w' : Fin 4), s.cache[i][w].valid = true → s.cache[i][w'].valid = true →
      s.cache[i][w].domain = s.cache[i][w'].domain → s.cache[i][w].vpn = s.cache[i][w'].vpn → w = w'

/-- Law 4: the queue never holds more than 12 records, and a channel is in FAULT_WAIT only while it holds 12; such a channel
has a held record (R122, R124). -/
def QueueLaw (s : State) : Prop :=
  s.queue.length ≤ 12
  ∧ ∀ c : ChannelId, s.channels[c].state = .faultWait → s.queue.length = 12 ∧ s.channels[c].held.isSome = true

/-- Law 7: the latch is set only in URGENT_ENTRY, URGENT_RUN, URGENT_HOLD and URGENT_RESTORE (R139). -/
def LatchLaw (s : State) : Prop :=
  s.urgent.latch.isSome = true →
    s.urgent.mode = .urgentEntry ∨ s.urgent.mode = .urgentRun ∨ s.urgent.mode = .urgentHold
      ∨ s.urgent.mode = .urgentRestore

/-- Whom the Engine may serve in each mode: a normal channel in NORMAL and in DRAIN, U in URGENT_RUN, and no one in SAVE,
URGENT_HOLD, URGENT_RESTORE and LOCKED (the table of 8.1, R141). -/
def ServerAllowed (s : State) : Prop :=
  match s.urgent.mode with
  | .normal => s.engine.service = .none ∨ s.engine.server ≠ .urgent
  | .urgentEntry =>
    s.engine.service = .none ∨ (s.urgent.step = .drain ∧ s.engine.server ≠ .urgent)
  | .urgentRun => s.engine.service ≠ .none ∧ s.engine.server = .urgent
  | .urgentHold | .urgentRestore | .locked => s.engine.service = .none

/-- The Engine serves only as the mode allows, and a normal channel is ACTIVE exactly while the Engine serves it; so at most
one is (R79, R105, R141). -/
def ServiceLaw (s : State) : Prop :=
  ServerAllowed s
  ∧ ∀ c : ChannelId, s.channels[c].state = .active ↔ s.engine.service ≠ .none ∧ s.engine.server = .channel c

/-- Law 10 with the facts that carry it (R83): for every channel that is not IDLE the count is at least 1 and remaining at
most the count, and a move service has a beat to make. -/
def CountsLaw (s : State) : Prop :=
  ServiceLaw s
  ∧ (∀ c : ChannelId, s.channels[c].state ≠ .idle →
      1 ≤ s.channels[c].count.toNat ∧ s.channels[c].remaining.toNat ≤ s.channels[c].count.toNat)
  ∧ ∀ c : ChannelId, s.engine.service = .move → s.engine.server = .channel c → 1 ≤ s.channels[c].remaining.toNat

/-- The Engine's access that is in flight or pending, if there is one (R169). -/
def State.engineAccess (s : State) : Option Access :=
  match s.sbi.inFlight with
  | some (.engine, a) => some a
  | _ => s.sbi.engine

/-- The walk that the Engine has asked for and not had answered: in progress, or waiting (R34). -/
def State.engineWalk (s : State) : Option WalkRequest :=
  if s.walker.state ≠ .idle ∧ s.walker.requester = .engine then some s.walker.request else s.walker.engineWaiting

/-- Law 2: every valid cache entry belongs to an OPEN domain (R13). -/
def OpenTagsLaw (s : State) : Prop :=
  ∀ (i : Fin 16) (w : Fin 4), s.cache[i][w].valid = true → s.domains[s.cache[i][w].domain].state = .opened

/-- Law 8: a port access of a normal channel, pending or in flight, has its ports granted to the channel's domain (R111). -/
def PortLaw (s : State) : Prop :=
  ∀ (c : ChannelId) (a : Access), s.engine.server = .channel c → s.engineAccess = some a → a.space = .port →
    s.PortsGranted s.channels[c].domain a.width (a.address.extractLsb' 0 8)

/-- A channel that is neither IDLE nor DONE is bound to an OPEN domain (R12, R13). -/
def BoundLaw (s : State) : Prop :=
  ∀ c : ChannelId, s.channels[c].state ≠ .idle → s.channels[c].state ≠ .done →
    s.domains[s.channels[c].domain].state = .opened

/-- The Engine has at most one access or walk outstanding, and only in a service; its walk is for the domain of the channel it
serves (R33, R34, R112, R169). The walker has at most one access, and only in a walk (R32, R169). -/
def OutstandingLaw (s : State) : Prop :=
  (s.engine.service = .none → s.engineAccess = none)
  ∧ (∀ a, s.sbi.inFlight = some (.engine, a) → s.sbi.engine = none)
  ∧ (∀ a, s.sbi.inFlight = some (.walker, a) → s.sbi.walker = none)
  ∧ ((∃ a, s.sbi.inFlight = some (.walker, a)) ∨ s.sbi.walker ≠ none → s.walker.state ≠ .idle)
  ∧ (s.walker.state ≠ .idle → s.walker.requester = .engine → s.walker.engineWaiting = none)
  ∧ ∀ r, s.engineWalk = some r → s.engineAccess = none ∧ s.engine.service ≠ .none
      ∧ ∃ c : ChannelId, s.engine.server = .channel c ∧ r.domain = s.channels[c].domain

/-- A beat that has passed its port's check keeps the grant: an INGEST while it waits for a walk, an EMIT while it waits for
its read (R109). -/
def PromiseLaw (s : State) : Prop :=
  ∀ c : ChannelId, s.engine.service = .move → s.engine.server = .channel c →
    let x := s.channels[c]
    let width : Width := if x.control.getLsbD 2 = true then .word else .byte
    (x.control.toNat % 4 = 1 → s.engineWalk ≠ none → s.PortsGranted x.domain width (x.source.extractLsb' 0 8))
    ∧ (x.control.toNat % 4 = 2 → s.engineWalk ≠ none → s.engine.readAt = none)
    ∧ (x.control.toNat % 4 = 2 → s.engine.stage = .read → s.engineAccess ≠ none →
        s.PortsGranted x.domain width (x.dest.extractLsb' 0 8))

/-- Laws 2 and 8 with the facts that carry them. -/
def ConfinementLaw (s : State) : Prop :=
  ServiceLaw s ∧ OpenTagsLaw s ∧ PortLaw s ∧ BoundLaw s ∧ OutstandingLaw s ∧ PromiseLaw s

/-- A context that the save can write and that the conditions of R161 admit: those "that a context written by the save
always meets". -/
def Restorable (s : State) (c : ChannelId) : Prop :=
  let x := s.channels[c]
  x.state ≠ .active ∧ x.pendingHalt = false ∧ x.pendingAbort = false ∧ x.burst.toNat ≤ 16
  ∧ (x.state ≠ .idle →
      (x.state = .done ∨ s.domains[x.domain].state = .opened)
      ∧ 1 ≤ x.count.toNat ∧ x.remaining.toNat ≤ x.count.toNat ∧ 1 ≤ x.burst.toNat
      ∧ (x.state = .waitReq → x.phase = .move ∧ x.line.isSome = true ∧ x.element.paced = true)
      ∧ (x.state = .done → x.phase = .writeback)
      ∧ (x.phase ≠ .fetch → descAddrOk (.channel c) x.descriptor = true)
      ∧ (x.phase = .move → 1 ≤ x.remaining.toNat ∧ x.element.sidesOk (spaceTop (.channel c)) = true))

end Sys2Proof.Machine
end

