-- ==== Sys2Proof/Certificates/Slice0/Obligations.lean ====
section
/-! DEFINITION. The statements about the part that the provers are asked for. -/

open Sys2Proof Sys2Proof.Machine

/-! ### The queue, the resets and RST/ -/

/-- A step takes the command at the front of the queue and is that command's effect on the part with the rest of the queue. On
an empty queue the part idles, which is the model's choice (log entry 1). -/
def Obligations.StepTakesFrontCommand : Prop :=
  (∀ (c : Instr) (rest : List Instr) (s : State),
    step { s with pending := c :: rest } = exec c { s with pending := rest })
  ∧ ∀ s : State, s.pending = [] → step s = .next s

/-- Every command of the table answers a next state in every state, and none touches the queue. That an event row answers so in
a state in which its event cannot happen is the model's choice (log entry 2), and that HARD_RESET leaves the waiting commands
(log entry 9). -/
def Obligations.EveryCommandCompletes : Prop :=
  ∀ (c : Instr) (s : State), ∃ t, exec c s = .next t ∧ t.pending = s.pending

/-- While RST/ is asserted nothing but its release, or a new assertion, has an effect (R137, R174, R175; log entry 9), and a
read of the window drives no data; otherwise a read drives the register's content (R175). -/
def Obligations.NothingTakenWhileResetHeld : Prop :=
  (∀ (c : Instr) (s : State), s.pins.rst = true → c ≠ .hardReset → c ≠ .rstRelease → exec c s = .next s)
  ∧ ∀ (s : State) (reg : BitVec 6),
    (s.pins.rst = true → s.windowRead reg = none) ∧ (s.Running → s.windowRead reg = some (s.readReg reg))

/-- HARD_RESET gives every block its hard-reset state and floats the bus, in every state; RST_RELEASE then leaves the part as
State.reset has it, with the tenure RELEASING, and outside a reset it does nothing. That the fields which play no part, and
the levels of URQ/ and PREQ0 to PREQ7, read as in State.reset is the model's choice (log entries 5, 6 and 10), and so are the
window's values, INT/ deasserted with them, from the assertion of RST/ on, where the spec gives them from its release (log
entry 22), the empty image buffer as a list (log entry 13), a release outside a reset that does nothing (log entry 2), and
the waiting commands that stay and the tenure RELEASING under RST/ (log entry 9). -/
def Obligations.HardResetAndRelease : Prop :=
  (∀ s : State, ∃ t, exec .hardReset s = .next t
    ∧ t.pins.rst = true ∧ t.busRequested = false ∧ t.busOutputs = none ∧ t.intAsserted = false
    ∧ (∀ d : DomainId, t.domains[d] =
        { state := .closed, dirBase := 0, pageLimit := 0, readOnly := false, trackUsed := false, trackWritten := false })
    ∧ (∀ (d : DomainId) (p : Port), t.portGranted d p = false)
    ∧ (∀ (i : Fin 16) (w : Fin 4), t.cache[i][w].valid = false ∧ t.cache[i][w].referenced = false)
    ∧ t.walker.state = .idle ∧ t.walker.stale = false ∧ t.walker.engineWaiting = none ∧ t.walker.probeWaiting = none
    ∧ (∀ c : ChannelId, t.channels[c] = Channel.reset)
    ∧ (∀ p : Fin 4, t.pointers[p] = 7)
    ∧ t.engine.service = .none ∧ t.engine.datum = none
    ∧ t.queue = []
    ∧ t.urgent.mode = .normal ∧ t.urgent.latch = none ∧ t.urgent.entryCause = none
    ∧ t.urgent.saveBase = 0x000400#24 ∧ t.urgent.saveStaging = 0x0400#16
    ∧ t.urgent.listBase = 0x000000#24 ∧ t.urgent.listStaging = 0x0000#16
    ∧ t.urgent.u = UContext.reset ∧ t.urgent.fault = .none
    ∧ t.urgent.lock = { kind := .none, place := 0 } ∧ t.urgent.armed = false
    ∧ t.urgent.image = [] ∧ t.urgent.readProgress = 0
    ∧ t.sbi.inFlight = none ∧ t.sbi.anyPending = false
    ∧ t.window = Window.reset
    ∧ exec .rstRelease t = .next { State.reset with pending := s.pending })
  ∧ (∀ s : State, s.pins.rst = true →
      exec .rstRelease s = .next { s with pins := { s.pins with rst := false }, sbi := { s.sbi with tenure := .releasing } })
  ∧ ∀ s : State, s.pins.rst = false → exec .rstRelease s = .next s

/-- Where no access is in flight ENGINE_RESET ends at once; where one is, ENGINE_RESET_COMPLETE ends it, or the end of the
access itself, whose completion is handed to no requester. At the end every block has its engine-reset state and what the
spec keeps is kept (R15, R38, R59, R100, R102, R119, R135, R136, R174, R179, R183). An ARMED detector that then finds URQ/
low takes the fall as an urgent request with source LINE (R137). That either row ends the reset is the model's reading (log
entry 11); what the free Engine's other fields read (log entry 10), and that the latched arguments are kept (log entry 21),
is its choice. -/
def Obligations.EngineResetEnds : Prop :=
  ∀ (s : State) (c : Instr), s.Running →
    let ends (r : Slot) : Prop := s.window.resetting = true ∧ ∃ a, s.sbi.inFlight = some (r, a)
    (c = .engineReset ∧ s.window.resetting = false ∧ s.sbi.inFlight = none)
      ∨ (c = .engineResetComplete ∧ s.window.resetting = true)
      ∨ (ends .walker ∧ ∃ e, c = .walkAccessEnd e)
      ∨ (ends .engine ∧ ∃ e preq,
          (s.engine.service = .fetch ∧ c = .fetchReadEnd e)
          ∨ (s.engine.service = .move ∧ s.engine.stage = .read ∧ c = .beatReadEnd e)
          ∨ (s.engine.service = .move ∧ s.engine.stage = .write ∧ c = .beatWriteEnd e preq)
          ∨ (s.engine.service = .writeback ∧ c = .statusWriteEnd e))
      ∨ (ends .urgent ∧ ∃ e preq,
          (s.urgent.mode = .urgentEntry ∧ s.urgent.step = .save ∧ c = .saveWriteEnd e)
          ∨ (s.urgent.mode = .urgentRestore ∧ c = .restoreReadEnd e preq)) →
    ∃ t, exec c s = .next t
      ∧ t.domains = s.domains ∧ t.grants = s.grants ∧ t.pins = s.pins
      ∧ (∀ (i : Fin 16) (w : Fin 4), t.cache[i][w] = { s.cache[i][w] with valid := false, referenced := false })
      ∧ t.walker.state = .idle ∧ t.walker.stale = false ∧ t.walker.engineWaiting = none ∧ t.walker.probeWaiting = none
      ∧ (∀ c : ChannelId, t.channels[c] = Channel.reset)
      ∧ (∀ p : Fin 4, t.pointers[p] = 7)
      ∧ t.engine = Engine.free ∧ t.queue = []
      ∧ t.urgent =
          (let u := { Urgent.reset with
              saveBase := s.urgent.saveBase, saveStaging := s.urgent.saveStaging, listBase := s.urgent.listBase,
              listStaging := s.urgent.listStaging, armed := s.urgent.armed }
           if s.urgent.armed = true ∧ s.pins.urqHigh = false then
             { u with armed := false, mode := .urgentEntry, step := .drain, entryCause := some .line }
           else u)
      ∧ t.sbi = { Sbi.reset with
          tenure := if s.sbi.tenure = .idle then .idle else .releasing }
      ∧ t.window = { s.window with
          busy := false, resetting := false, done := 0, urgentCause := false, lockCause := false, cmdCause := false,
          probe := if s.window.busy = true then { ProbeResult.reset with outcome := .aborted } else s.window.probe }

/-- Where an access is in flight, ENGINE_RESET empties the pending slots and waits; a second write has no further effect
(R174, R179). Meanwhile no channel is granted, no walk starts, no WAIT_REQ channel wakes, and a fall of URQ/ makes no
request and leaves the detector as it was (R137, R179). That each is a step that does nothing
(log entries 2 and 3) but keep the sampled levels in the pins (log entries 5 and 6) is the model's choice. -/
def Obligations.EngineResetWaits : Prop :=
  (∀ (s : State) (x : Slot × Access), s.Running → s.window.resetting = false → s.sbi.inFlight = some x →
    exec .engineReset s = .next { s with
      sbi := { s.sbi with walker := none, engine := none, urgent := none }
      window := { s.window with resetting := true } })
  ∧ ∀ s : State, s.Running → s.window.resetting = true →
    exec .engineReset s = .next s
    ∧ exec .walkStart s = .next s
    ∧ exec .saveBegin s = .next s
    ∧ (∀ preq, exec (.schedulerGrant preq) s = .next { s with pins := { s.pins with preq := preq } })
    ∧ (∀ n : Fin 8, exec (.lineAsserted n) s =
        .next { s with pins := { s.pins with preq := s.pins.preq ||| 1#8 <<< n.val } })
    ∧ exec .urqRequest s = .next { s with pins := { s.pins with urqHigh := false } }

/-! ### The register window -/

/-- Every host write is a well-formed row of the table, and the row spells that write; and a well-formed row that is a host
write is the row that its write spells. So no bit of a write is dropped. -/
def Obligations.HostWritesAndRowsAgree : Prop :=
  (∀ (reg : BitVec 6) (v : Word),
    (rowOfWrite reg v).wellFormed = true ∧ (rowOfWrite reg v).asWrite = some (reg, v))
  ∧ ∀ (i : Instr) (reg : BitVec 6) (v : Word),
    i.wellFormed = true → i.asWrite = some (reg, v) → rowOfWrite reg v = i

/-- The register map and the rows agree: a write of any value to any register has the effect of the row that it is. -/
def Obligations.RegisterMapRunsRows : Prop :=
  ∀ (reg : BitVec 6) (v : Word) (s : State), exec (rowOfWrite reg v) s = .next (s.unlessReset (s.writeReg reg v))

/-- REGISTER_WRITE: a value written to ARG0 to ARG3 is stored and read back, and nothing else changes; a write to a read-only
register, to an unassigned offset, or to CTRL with another value than 5AA5H changes nothing. In every state IDR reads 0047H,
and CTRL and every unassigned offset read 0000H (R175, R176, R179, the register map of 11.1). -/
def Obligations.RegisterWritesStoreOrVanish : Prop :=
  (∀ (reg : BitVec 6) (v : Word) (s : State), s.Running → (Instr.registerWrite reg v).wellFormed = true →
    ∃ t, exec (.registerWrite reg v) s = .next t
      ∧ t = { s with window := { s.window with args := t.window.args } }
      ∧ (4 ≤ reg.toNat ∧ reg.toNat ≤ 7 → t.readReg reg = v)
      ∧ ∀ r : BitVec 6, r ≠ reg ∨ ¬ (4 ≤ reg.toNat ∧ reg.toNat ≤ 7) → t.readReg r = s.readReg r)
  ∧ ∀ s : State, s.readReg 0x00#6 = 0x0047#16 ∧ s.readReg 0x01#6 = 0x0000#16
    ∧ ∀ r : BitVec 6, 2 * r.toNat ∈ [0x18, 0x1A, 0x1C, 0x1E, 0x2E, 0x5E, 0x6A, 0x74, 0x76, 0x78, 0x7A, 0x7C, 0x7E] →
      s.readReg r = 0x0000#16

/-- TSEL_WRITE selects the domain of bits 3..0 and the port group of bits 11..8, CSEL_WRITE the channel of bits 2..0, in every
mode and whatever the Command Unit does; the other bits are ignored and nothing else changes. Both read back. -/
def Obligations.SelectorWritesSelect : Prop :=
  ∀ (v : Word) (s : State), s.Running →
    (∃ t, exec (.tselWrite v) s = .next t ∧ t.readReg 0x10#6 = v &&& 0x0F0F#16
      ∧ t.window.tselDomain.val = v.toNat % 16 ∧ t.window.tselGroup.val = v.toNat / 256 % 16
      ∧ t = { s with window := { s.window with tselDomain := t.window.tselDomain, tselGroup := t.window.tselGroup } })
    ∧ ∃ t, exec (.cselWrite v) s = .next t ∧ t.readReg 0x1C#6 = v &&& 0x0007#16
      ∧ t.window.csel.val = v.toNat % 8
      ∧ t = { s with window := { s.window with csel := t.window.csel } }

/-- ICAUSE_WRITE clears URGENT, LOCK and CMD where written 1; WFLG_WRITE clears TABLE_LOCKED and REFUSED where written 1;
DONE_FLAG_CLEAR clears the done flags written 1; IENA_WRITE sets the five enables. Each leaves all else, so CHDONE and FAULT
follow their sources alone. ICAUSE shows the five causes in bits 4 to 0, IENA the five enables there, and DONE the eight done
flags in bits 7 to 0; every other bit of the three reads 0. INT/ is asserted exactly while some cause and its enable are both
1 (R131, R178, R180, R181, R182). -/
def Obligations.CausesFlagsAndInterrupt : Prop :=
  (∀ (v : Word) (s : State), s.Running →
    exec (.icauseWrite v) s = .next { s with window := { s.window with
      urgentCause := s.window.urgentCause && !v.getLsbD 2
      lockCause := s.window.lockCause && !v.getLsbD 3
      cmdCause := s.window.cmdCause && !v.getLsbD 4 } }
    ∧ exec (.wflgWrite v) s = .next { s with window := { s.window with
      tableLocked := s.window.tableLocked && !v.getLsbD 0
      refused := s.window.refused && !v.getLsbD 1 } }
    ∧ (∃ t, exec (.doneFlagClear v) s = .next t
        ∧ (∀ c : ChannelId, t.doneFlag c = (s.doneFlag c && !v.getLsbD c.val))
        ∧ t = { s with window := { s.window with done := t.window.done } })
    ∧ ∃ t, exec (.ienaWrite v) s = .next t ∧ t.readReg 0x09#6 = v &&& 0x001F#16
        ∧ t = { s with window := { s.window with iena := t.window.iena } })
  ∧ ∀ s : State,
      (s.readReg 0x08#6).getLsbD 0 = (s.window.done != 0)
      ∧ (s.readReg 0x08#6).getLsbD 1 = (s.queue.length != 0)
      ∧ (s.readReg 0x08#6).getLsbD 2 = s.window.urgentCause
      ∧ (s.readReg 0x08#6).getLsbD 3 = s.window.lockCause
      ∧ (s.readReg 0x08#6).getLsbD 4 = s.window.cmdCause
      ∧ (s.readReg 0x08#6).toNat < 32 ∧ (s.readReg 0x09#6).toNat < 32
      ∧ (∀ c : ChannelId, (s.readReg 0x0B#6).getLsbD c.val = s.doneFlag c) ∧ (s.readReg 0x0B#6).toNat < 256
      ∧ (s.intAsserted = true ↔
          ∃ n : Fin 5, (s.readReg 0x08#6).getLsbD n.val = true ∧ (s.readReg 0x09#6).getLsbD n.val = true)

/-- The registers that show the last command and its result, the record and the grant word of the selected domain, the
probe's answer, the window's flags, the selected channel, the fault queue and its head, the urgent service, the lock cause
and the two bases carry the state's fields at the named bits, in the codes of their tables, and 0 at every other bit; an
empty queue's head reads 0 (R6, R56, R81, R120, R129, R150, R153, R154, R162, R176, R178, the tables of 3.6 and 11.2). -/
def Obligations.RegistersShowTheState : Prop :=
  ∀ s : State,
    let d := s.domains[s.window.tselDomain]
    let x := s.channels[s.window.csel]
    let u := s.urgent
    let p := s.window.probe
    let reg (k : Nat) : Nat := (s.readReg (BitVec.ofNat 6 k)).toNat
    let phase : Phase → Nat := fun | .fetch => 0 | .move => 1 | .writeback => 2
    let state : ChannelState → Nat := fun
      | .idle => 0 | .ready => 1 | .waitReq => 2 | .active => 3 | .halted => 4 | .faulted => 5 | .faultWait => 6 | .done => 7
    let code : WritebackCode → Nat := fun | .complete => 1 | .skipped => 2
    let completion : Completion → Nat := fun | .none => 0 | .complete => 1 | .aborted => 2 | .cleared => 3
    let kind : FaultKind → Nat := fun
      | .overLimit => 1 | .dirAbsent => 2 | .pageAbsent => 3 | .writeDenied => 4 | .portDenied => 5 | .descFormat => 6
      | .busError => 7
    let access : FaultAccess → Nat := fun
      | .read => 0 | .write => 1 | .fetch => 2 | .writeback => 3 | .portRead => 4 | .portWrite => 5
    let mode : Mode → Nat := fun
      | .normal => 0 | .urgentEntry => 1 | .urgentRun => 2 | .urgentHold => 3 | .urgentRestore => 4 | .locked => 5
    let cause : Option Source → Nat := fun | none => 0 | some .line => 1 | some .command => 2
    let fault : UrgentFault → Nat := fun | .none => 0 | .descFormat => 1 | .busError => 2
    let lock : LockKind → Nat := fun
      | .none => 0 | .saveBusError => 1 | .restoreBusError => 2 | .badRelocation => 3 | .badStateCode => 4
      | .badTransition => 5 | .badDisposition => 6 | .dispositionNotAllowed => 7 | .badContext => 8
    let result : Result → Nat := fun
      | .ok => 0 | .badCommand => 1 | .badChannel => 2 | .badDomain => 3 | .badState => 4 | .domainBusy => 5
      | .engineUnavailable => 6 | .badArgument => 7
    let outcome : ProbeOutcome → Nat := fun
      | .none => 0 | .translated => 1 | .dirAbsent => 2 | .pageAbsent => 3 | .overLimit => 4 | .writeDenied => 5
      | .busError => 6 | .aborted => 7
    (reg 0x02 = s.window.cmd.toNat ∧ reg 0x03 = result s.window.res
      ∧ reg 0x0A = s.window.tableLocked.toNat + 2 * s.window.refused.toNat + 256 * s.window.busy.toNat
          + 512 * s.window.resetting.toNat)
    ∧ (reg 0x11 = d.dirBase.toNat % 512 * 128 ∧ reg 0x12 = d.dirBase.toNat / 512 ∧ reg 0x13 = d.pageLimit.toNat
      ∧ reg 0x14 = d.readOnly.toNat + 2 * d.trackUsed.toNat + 4 * d.trackWritten.toNat
      ∧ reg 0x15 = (match d.state with | .closed => 0 | .opened => 1)
      ∧ ∀ i : Fin 16, (s.readReg 0x16#6).getLsbD i.val =
          s.portGranted s.window.tselDomain (BitVec.ofNat 8 (16 * s.window.tselGroup.val + i.val)))
    ∧ (reg 0x18 = outcome p.outcome ∧ reg 0x19 = p.address.toNat % 65536 ∧ reg 0x1A = p.address.toNat / 65536
      ∧ reg 0x1B = p.hit.toNat + 2 * p.writable.toNat + 4 * p.writtenKnown.toNat)
    ∧ (reg 0x1D = state x.state + 16 * phase x.phase + 64 * code x.code + 256 * completion x.completion
        + 4096 * x.pendingHalt.toNat + 8192 * x.pendingAbort.toNat + 16384 * x.held.isSome.toNat
      ∧ reg 0x1E = x.domain.val + 16 * x.priority.val + 256 * (match x.line with | some n => n.val | none => 15)
      ∧ reg 0x1F = x.control.toNat + 256 * x.burst.toNat
      ∧ reg 0x20 = x.descriptor.toNat % 65536 ∧ reg 0x21 = x.descriptor.toNat / 65536 % 64
      ∧ reg 0x22 = x.count.toNat ∧ reg 0x23 = x.remaining.toNat
      ∧ reg 0x24 = x.source.toNat % 65536 ∧ reg 0x25 = x.dest.toNat % 65536
      ∧ reg 0x26 = x.origSource.toNat % 65536 ∧ reg 0x27 = x.origDest.toNat % 65536)
    ∧ (s.queue.length ≤ 12 → reg 0x28 = s.queue.length)
    ∧ (s.queue = [] → ∀ k ∈ [0x29, 0x2A, 0x2B, 0x2C, 0x2D, 0x2E], reg k = 0)
    ∧ (∀ (h : FaultRecord) (rest : List FaultRecord), s.queue = h :: rest →
      reg 0x29 = kind h.kind + 16 * access h.access + 256 * phase h.phase
      ∧ reg 0x2A = h.channel.val + 16 * h.domain.val
      ∧ reg 0x2B = h.address.toNat % 65536 ∧ reg 0x2C = h.address.toNat / 65536
      ∧ reg 0x2D = h.descriptor.toNat % 65536 ∧ reg 0x2E = h.descriptor.toNat / 65536)
    ∧ (reg 0x30 = mode u.mode + 8 * u.latch.isSome.toNat + 16 * (u.latch == some .command).toNat
        + 64 * cause u.entryCause + 256 * fault u.fault + 4096 * phase u.u.phase
      ∧ reg 0x31 = u.u.position.toNat % 65536 ∧ reg 0x32 = u.u.position.toNat / 65536 % 256
      ∧ reg 0x33 = u.u.remaining.toNat
      ∧ reg 0x34 = lock u.lock.kind + 256 * u.lock.place.toNat
      ∧ reg 0x36 = u.saveBase.toNat % 65536 ∧ reg 0x37 = u.saveBase.toNat / 65536
      ∧ reg 0x38 = u.listBase.toNat % 65536 ∧ reg 0x39 = u.listBase.toNat / 65536)

/-- UNKNOWN_COMMAND_CODE: a code that names no command is taken and gives BAD_COMMAND. While the Command Unit is BUSY or an
engine reset is in progress, a write of any code to CMD sets REFUSED and does nothing else (R176, R177). -/
def Obligations.CommandsTakenOrRefused : Prop :=
  (∀ (v : Word) (s : State), s.TakesCommands → (Instr.unknownCommandCode v).wellFormed = true →
    exec (.unknownCommandCode v) s = .next (s.recorded (v.extractLsb' 0 8) .badCommand))
  ∧ ∀ (v : Word) (s : State), s.Running → (s.window.busy = true ∨ s.window.resetting = true) →
    exec (rowOfCommand v) s = .next { s with window := { s.window with refused := true } }

/-! ### Domains and grant maps -/

/-- DOM_OPEN opens a CLOSED domain whose tracking is not U=0, W=1, and changes nothing else of it (R10, R11). DOM_CLOSE closes
an OPEN domain none of whose channels is other than IDLE or DONE, invalidates its cache entries, and marks a walk of the domain
stale; everything else stands: channels, queue, grant maps, the other domains (R10, R12). -/
def Obligations.DomOpenOpensDomCloseCloses : Prop :=
  ∀ (hi : Byte) (s : State) (d : DomainId), s.TakesCommands → s.urgent.mode = .normal →
    s.window.args.arg0.toNat = d.val →
    (s.domains[d].state = .closed → ¬ (s.domains[d].trackUsed = false ∧ s.domains[d].trackWritten = true) →
      exec (.domOpen hi) s = .next
        ({ s with domains := s.domains.set d { s.domains[d] with state := .opened } }.recorded 0x01 .ok))
    ∧ (s.domains[d].state = .opened →
      (∀ c : ChannelId, s.channels[c].domain = d → s.channels[c].state = .idle ∨ s.channels[c].state = .done) →
      ∃ t, exec (.domClose hi) s = .next t
        ∧ t.domains = s.domains.set d { s.domains[d] with state := .closed }
        ∧ Invalidated s t (fun _ e => e.valid && e.domain == d)
        ∧ t.walker = { s.walker with
            stale := s.walker.stale || (s.walker.state != .idle && s.walker.request.domain == d) }
        ∧ t = { s.recorded 0x02 .ok with domains := t.domains, cache := t.cache, walker := t.walker })

/-- The refusals of DOM_OPEN, DOM_CLOSE and PROBE, the first failing check in the order of R10 and of R55 giving the result; a
refused command changes nothing but what taking it records (R10, R13, R55). -/
def Obligations.DomainAndProbeRefusals : Prop :=
  ∀ (hi : Byte) (s : State), s.TakesCommands →
    (s.urgent.mode ≠ .normal →
      exec (.domOpen hi) s = .next (s.recorded 0x01 .engineUnavailable)
      ∧ exec (.domClose hi) s = .next (s.recorded 0x02 .engineUnavailable)
      ∧ exec (.probe hi) s = .next (s.recorded 0x06 .engineUnavailable))
    ∧ (s.urgent.mode = .normal → 16 ≤ s.window.args.arg0.toNat →
      exec (.domOpen hi) s = .next (s.recorded 0x01 .badDomain)
      ∧ exec (.domClose hi) s = .next (s.recorded 0x02 .badDomain)
      ∧ exec (.probe hi) s = .next (s.recorded 0x06 .badDomain))
    ∧ ∀ d : DomainId, s.urgent.mode = .normal → s.window.args.arg0.toNat = d.val →
      (s.domains[d].state = .opened → exec (.domOpen hi) s = .next (s.recorded 0x01 .badState))
      ∧ (s.domains[d].state = .closed → exec (.domClose hi) s = .next (s.recorded 0x02 .badState))
      ∧ (s.domains[d].state = .closed → s.domains[d].trackUsed = false → s.domains[d].trackWritten = true →
          exec (.domOpen hi) s = .next (s.recorded 0x01 .badArgument))
      ∧ (s.domains[d].state = .opened →
          (∃ c : ChannelId, s.channels[c].domain = d ∧ s.channels[c].state ≠ .idle ∧ s.channels[c].state ≠ .done) →
          exec (.domClose hi) s = .next (s.recorded 0x02 .domainBusy))
      ∧ (64 ≤ s.window.args.arg2.toNat ∨ 4 ≤ s.window.args.arg3.toNat →
          exec (.probe hi) s = .next (s.recorded 0x06 .badArgument))
      ∧ (s.window.args.arg2.toNat < 64 → s.window.args.arg3.toNat < 4 → s.domains[d].state = .closed →
          exec (.probe hi) s = .next (s.recorded 0x06 .badState))

/-- DOMAIN_FIELD_WRITE: for a CLOSED domain the written bits replace the field of the record and read back, and nothing else
changes: DBL gives bits 15..7 of the directory base, DBH bits 23..16, PLIM the page limit, and DFLAG the read-only, U and W
flags; for an OPEN domain the write only sets TABLE_LOCKED (R6, R7). -/
def Obligations.DomainFieldWritesReplace : Prop :=
  ∀ (f : DomainField) (v : Word) (s : State), s.Running →
    let r := s.domains[s.window.tselDomain]
    (r.state = .closed →
      ∃ t, exec (.domainFieldWrite f v) s = .next t
        ∧ (let r' := t.domains[s.window.tselDomain]
          match f with
          | .dbl => r'.dirBase.toNat = r.dirBase.toNat / 512 * 512 + v.toNat / 128 ∧ r' = { r with dirBase := r'.dirBase }
          | .dbh => r'.dirBase.toNat = v.toNat % 256 * 512 + r.dirBase.toNat % 512 ∧ r' = { r with dirBase := r'.dirBase }
          | .plim => r'.pageLimit.toNat = v.toNat % 2048 ∧ r' = { r with pageLimit := r'.pageLimit }
          | .dflag => r' = { r with
              readOnly := v.getLsbD 0, trackUsed := v.getLsbD 1, trackWritten := v.getLsbD 2 })
        ∧ t.readReg f.reg = v &&& (match f with
            | .dbl => 0xFF80#16 | .dbh => 0x00FF#16 | .plim => 0x07FF#16 | .dflag => 0x0007#16)
        ∧ (∀ g : DomainField, g ≠ f → t.readReg g.reg = s.readReg g.reg)
        ∧ t.readReg 0x15#6 = s.readReg 0x15#6
        ∧ t = { s with domains := s.domains.set s.window.tselDomain t.domains[s.window.tselDomain] })
    ∧ (r.state = .opened →
      exec (.domainFieldWrite f v) s = .next { s with window := { s.window with tableLocked := true } })

/-- GRANT_WORD_WRITE: for a CLOSED domain bit `i` becomes the grant of port `16 g + i`, and every other grant bit and all else
stand; for an OPEN domain the write only sets TABLE_LOCKED (R8). -/
def Obligations.GrantWordWritesReplace : Prop :=
  ∀ (v : Word) (s : State), s.Running →
    (s.domains[s.window.tselDomain].state = .closed →
      ∃ t, exec (.grantWordWrite v) s = .next t
        ∧ t.readReg 0x16#6 = v
        ∧ (∀ (d : DomainId) (p : Port), t.portGranted d p =
            if d = s.window.tselDomain ∧ p.toNat / 16 = s.window.tselGroup.val then v.getLsbD (p.toNat % 16)
            else s.portGranted d p)
        ∧ t = { s with grants := t.grants })
    ∧ (s.domains[s.window.tselDomain].state = .opened →
      exec (.grantWordWrite v) s = .next { s with window := { s.window with tableLocked := true } })

/-- Law 11: no command but DOM_CLOSE and HARD_RESET changes the record of an OPEN domain, and no command but HARD_RESET changes
its grant map. DOM_CLOSE changes no field of the record but the state. -/
def Obligations.OpenDomainsAreFrozen : Prop :=
  ∀ (i : Instr) (s t : State) (d : DomainId), i.wellFormed = true → exec i s = .next t → i ≠ .hardReset →
    s.domains[d].state = .opened →
    t.grants[d] = s.grants[d]
    ∧ ((∀ hi, i ≠ .domClose hi) → t.domains[d] = s.domains[d])
    ∧ t.domains[d] = { s.domains[d] with state := t.domains[d].state }

/-! ### The translation cache and probes -/

/-- INV_ALL in every mode: every entry has valid 0 and referenced 0 and keeps its other fields, any walk in progress is marked
stale, and nothing else changes (R46, R47). -/
def Obligations.InvAllInvalidatesEverything : Prop :=
  ∀ (hi : Byte) (s : State), s.TakesCommands →
    ∃ t, exec (.invAll hi) s = .next t
      ∧ Invalidated s t (fun _ _ => true)
      ∧ t.walker = { s.walker with stale := s.walker.stale || s.walker.state != .idle }
      ∧ t = { s.recorded 0x03 .ok with cache := t.cache, walker := t.walker }

/-- INV_DOMAIN and INV_PAGE in every mode invalidate the matching valid entries alone and mark a matching walk stale; INV_PAGE
matches in the set of the page. Their refusals change nothing (R46, R48, R49, R51). -/
def Obligations.InvDomainAndPageInvalidate : Prop :=
  ∀ (hi : Byte) (s : State), s.TakesCommands →
    (∀ d : DomainId, s.window.args.arg0.toNat = d.val →
      (∃ t, exec (.invDomain hi) s = .next t
        ∧ Invalidated s t (fun _ e => e.valid && e.domain == d)
        ∧ t.walker = { s.walker with
            stale := s.walker.stale || (s.walker.state != .idle && s.walker.request.domain == d) }
        ∧ t = { s.recorded 0x04 .ok with cache := t.cache, walker := t.walker })
      ∧ (s.window.args.arg2.toNat < 64 → ∀ v : VAddr,
          v.toNat = s.window.args.arg2.toNat * 65536 + s.window.args.arg1.toNat →
          ∃ t, exec (.invPage hi) s = .next t
            ∧ Invalidated s t (fun i e => i == setOf (vpnOf v) && (e.valid && e.domain == d && e.vpn == vpnOf v))
            ∧ t.walker = { s.walker with
                stale := s.walker.stale || (s.walker.state != .idle
                  && (s.walker.request.domain == d && vpnOf s.walker.request.vaddr == vpnOf v)) }
            ∧ t = { s.recorded 0x05 .ok with cache := t.cache, walker := t.walker })
      ∧ (64 ≤ s.window.args.arg2.toNat → exec (.invPage hi) s = .next (s.recorded 0x05 .badArgument)))
    ∧ (16 ≤ s.window.args.arg0.toNat →
      exec (.invDomain hi) s = .next (s.recorded 0x04 .badDomain)
      ∧ exec (.invPage hi) s = .next (s.recorded 0x05 .badDomain))

/-- PROBE on a hit is answered at once from the entry, without a mark on it, and raises the CMD cause; PROBE on a miss asks the
walker and leaves the Command Unit BUSY with the old answer standing (R55, R56, R57). That the request waits for the step
WALK_START, the walker IDLE or not, is the model's choice (log entry 3). -/
def Obligations.ProbeAnswersOrAsks : Prop :=
  ∀ (hi : Byte) (s : State) (d : DomainId) (v : VAddr) (a : MemAccess), s.TakesCommands → s.urgent.mode = .normal →
    s.window.args.arg0.toNat = d.val → s.window.args.arg2.toNat < 64 →
    v.toNat = s.window.args.arg2.toNat * 65536 + s.window.args.arg1.toNat →
    s.window.args.arg3.toNat = (match a with | .read => 0 | .write => 1 | .fetch => 2 | .writeback => 3) →
    s.domains[d].state = .opened →
    (∀ w : Fin 4, hitWay s.cache[setOf (vpnOf v)] d (vpnOf v) = some w →
      let e := s.cache[setOf (vpnOf v)][w]
      let r := s.recorded 0x06 .ok
      exec (.probe hi) s = .next { r with window := { r.window with
        cmdCause := true
        probe :=
          if (a = .write ∨ a = .writeback) ∧ e.writable = false then
            { outcome := .writeDenied, address := 0, hit := true, writable := false, writtenKnown := e.writtenKnown }
          else
            { outcome := .translated, address := e.frame ++ v.extractLsb' 0 11, hit := true, writable := e.writable,
              writtenKnown := e.writtenKnown } } })
    ∧ (hitWay s.cache[setOf (vpnOf v)] d (vpnOf v) = none →
      let r := s.recorded 0x06 .ok
      exec (.probe hi) s = .next { r with
        window := { r.window with busy := true }
        walker := { s.walker with probeWaiting := some { domain := d, vaddr := v, access := a } } })

/-- Law 3 is kept by every step. -/
def Obligations.MarksLawKept : Prop := ∀ s t : State, MarksLaw s → step s = .next t → MarksLaw t

/-- Law 1 is kept by every step. -/
def Obligations.TagsLawKept : Prop := ∀ s t : State, TagsLaw s → step s = .next t → TagsLaw t

/-- Laws 2 and 8, with the facts that carry them, are kept by every step: every valid cache entry belongs to an OPEN domain
(R13), and every port access that a normal channel has pending or in flight is at ports granted to its domain (R111). -/
def Obligations.ConfinementLawKept : Prop :=
  ∀ s t : State, ConfinementLaw s → step s = .next t → ConfinementLaw t

/-- The Engine's lookup (R40 to R42): a hit is answered by the table of R42 and changes nothing but the marks of its set; a
miss, or a write hit that calls for an update walk, asks the walker in NORMAL and is declined in every other mode. A mark sets
the way's referenced flag and clears the other three where all four would be set, and no others (R44). An install overwrites
the way that holds the page, else takes the lowest invalid way, else the lowest unreferenced way, makes the page hit there
with the translation's fields, marks the way, and leaves the translations of the other ways (R43, R44).
That a request waits for the step WALK_START is the model's choice (log entry 3). -/
def Obligations.LookupAnswers : Prop :=
  (∀ (s : State) (d : DomainId) (v : VAddr) (a : MemAccess),
    (∀ w : Fin 4, hitWay s.cache[setOf (vpnOf v)] d (vpnOf v) = some w →
      let e := s.cache[setOf (vpnOf v)][w]
      let t := s.touch (setOf (vpnOf v)) w
      let writes := a = .write ∨ a = .writeback
      (¬ writes → s.translate d v a = (.translated (e.frame ++ v.extractLsb' 0 11), t))
      ∧ (writes → e.writable = false → s.translate d v a = (.fault .writeDenied, t))
      ∧ (writes → e.writable = true → (e.writtenKnown = true ∨ s.domains[d].trackWritten = false) →
          s.translate d v a = (.translated (e.frame ++ v.extractLsb' 0 11), t))
      ∧ (writes → e.writable = true → e.writtenKnown = false → s.domains[d].trackWritten = true →
          s.translate d v a = t.requestWalk { domain := d, vaddr := v, access := a }))
    ∧ (hitWay s.cache[setOf (vpnOf v)] d (vpnOf v) = none →
        s.translate d v a = s.requestWalk { domain := d, vaddr := v, access := a })
    ∧ ∀ r : WalkRequest,
        (s.urgent.mode = .normal → s.requestWalk r =
          (.waiting, { s with walker := { s.walker with engineWaiting := some r } }))
        ∧ (s.urgent.mode ≠ .normal → s.requestWalk r = (.declined, s)))
  ∧ (∀ (t : CacheSet) (w w' : Fin 4),
      (markReferenced t w)[w'] = { t[w'] with
        referenced := decide (w' = w) || (t[w'].referenced && !decide (∀ k : Fin 4, k ≠ w → t[k].referenced = true)) })
  ∧ (∀ (s : State) (i : Fin 16) (w : Fin 4),
      s.touch i w = { s with cache := s.cache.set i (markReferenced s.cache[i] w) })
  ∧ (∀ (s : State) (x : Translation),
      s.install x = { s with cache := s.cache.set (setOf x.vpn) (installInto s.cache[setOf x.vpn] x) })
  ∧ ∀ (t : CacheSet) (x : Translation), (∃ w : Fin 4, t[w].referenced = false) →
    (∀ w w' : Fin 4, t[w].hits x.domain x.vpn = true → t[w'].hits x.domain x.vpn = true → w = w') →
    ∃ w : Fin 4,
      (t[w].hits x.domain x.vpn = true
        ∨ ((∀ k : Fin 4, t[k].hits x.domain x.vpn = false)
          ∧ ((t[w].valid = false ∧ ∀ k : Fin 4, k < w → t[k].valid = true)
            ∨ ((∀ k : Fin 4, t[k].valid = true) ∧ t[w].referenced = false
              ∧ ∀ k : Fin 4, k < w → t[k].referenced = true))))
      ∧ installInto t x = markReferenced (t.set w
          { valid := true, referenced := t[w].referenced, domain := x.domain, vpn := x.vpn, frame := x.frame,
            writable := x.writable, writtenKnown := x.writtenKnown }) w
      ∧ hitWay (installInto t x) x.domain x.vpn = some w

/-! ### The walker -/

/-- WALK_START takes the Engine's request before the probe's. A page within the limit has its first directory word read
issued, at the directory base times 128 plus 4 times the directory index, with the record values read. A page above the limit
ends the walk at once with OVER_LIMIT and no access: for a probe that is its answer, and for the Engine it is a fault of the
fetch, of the beat's side or of the writeback that asked. The other requester's waiting request stands (R18, R20, R21, R34,
R57, R68, R71, R110, R114). That a request has waited for this step with the walker IDLE is the model's choice (log entry 3),
and so is the tenure that an OWNER keeps meanwhile (log entry 19). -/
def Obligations.WalkStartChecksLimit : Prop :=
  ∀ (s : State) (q : Requester) (r : WalkRequest), s.Running → s.walker.state = .idle → s.urgent.mode = .normal →
    s.window.resetting = false →
    (q = .engine ∧ s.walker.engineWaiting = some r)
      ∨ (q = .probe ∧ s.walker.engineWaiting = none ∧ s.walker.probeWaiting = some r) →
    let d := s.domains[r.domain]
    (vpnOf r.vaddr ≤ d.pageLimit → ∃ t a, exec .walkStart s = .next t
      ∧ t.walker.state = .dirRead ∧ t.walker.requester = q ∧ t.walker.request = r ∧ t.walker.stale = false
      ∧ t.walker.second = false ∧ t.walker.tracking = (q == .engine)
      ∧ t.walker.dirBase = d.dirBase ∧ t.walker.pageLimit = d.pageLimit ∧ t.walker.readOnly = d.readOnly
      ∧ t.walker.trackUsed = d.trackUsed ∧ t.walker.trackWritten = d.trackWritten
      ∧ t.walker.engineWaiting = none
      ∧ t.walker.probeWaiting = (if q = .engine then s.walker.probeWaiting else none)
      ∧ a.toNat = d.dirBase.toNat * 128 + 4 * (r.vaddr.toNat / 131072)
      ∧ t = { s with walker := t.walker, sbi := (s.sbi.handOver .walker (readWord a)).settle })
    ∧ (d.pageLimit < vpnOf r.vaddr → q = .probe → ∃ t, exec .walkStart s = .next t
      ∧ t.walker.state = .idle ∧ t.walker.stale = false
      ∧ t.walker.engineWaiting = s.walker.engineWaiting ∧ t.walker.probeWaiting = none
      ∧ t = { s with
          walker := t.walker, sbi := s.sbi.settle
          window := { s.window with
            busy := false, cmdCause := true, probe := { ProbeResult.reset with outcome := .overLimit } } })
    ∧ (d.pageLimit < vpnOf r.vaddr → q = .engine → ∀ (c : ChannelId) (acc : FaultAccess) (addr : BitVec 22),
        s.engine.server = .channel c →
        let x := s.channels[c]
        let kind := x.control.toNat % 4
        let readSide : Prop := (kind = 0 ∨ kind = 2) ∧ s.engine.readAt = none
        (s.engine.service = .fetch ∧ acc = .fetch
            ∧ addr = x.descriptor.extractLsb' 0 22 + BitVec.ofNat 22 (2 * s.engine.fetched.length))
          ∨ (s.engine.service = .move ∧ readSide ∧ acc = .read ∧ addr = x.source.extractLsb' 0 22)
          ∨ (s.engine.service = .move ∧ ¬ readSide ∧ acc = .write ∧ addr = x.dest.extractLsb' 0 22)
          ∨ (s.engine.service = .writeback ∧ acc = .writeback ∧ addr = x.descriptor.extractLsb' 0 22 + 1) →
        ∃ t, exec .walkStart s = .next t ∧ t.walker.state = .idle ∧ t.walker.stale = false
          ∧ t.walker.engineWaiting = none ∧ t.walker.probeWaiting = s.walker.probeWaiting
          ∧ Reported s t c (recordOf s c .overLimit acc addr)
          ∧ t = { s with
              walker := t.walker, sbi := s.sbi.settle, engine := Engine.free, queue := t.queue,
              channels := t.channels })

/-- WALK_ACCESS_END with ready moves a walk that is not stale through its word reads: the second directory word, the page
table that the directory entry names, the second page word. Where tracking is due (U 1 and Used 0; or W 1, a write or
writeback, and Written 0) the low word is written back with Used set, and with Written set too for a write or writeback with
W 1 (R18, R19, R22, R23, R25, R32).
That the walker hands over its next access before the SBI looks for one is the model's choice (log entry 12). -/
def Obligations.WalkReadsTheTables : Prop :=
  ∀ (s : State) (a : Access) (sd : Word), s.Carrying .walker a → a.width = .word → s.walker.stale = false →
    let w := s.walker
    let v := w.request.vaddr
    let writes : Prop := w.request.access = .write ∨ w.request.access = .writeback
    let next (t : State) (x : Access) : Prop :=
      t = { s with walker := t.walker, sbi := (s.sbi.ended.handOver .walker x).settle }
    (w.state = .dirRead → w.second = false →
      ∃ t x, exec (.walkAccessEnd (.ready sd)) s = .next t ∧ next t (readWord x)
        ∧ x.toNat = w.dirBase.toNat * 128 + 4 * (v.toNat / 131072) + 2
        ∧ t.walker = { w with second := true, dirPresent := sd.getLsbD 0, tableBase := 0#8 ++ sd.extractLsb' 8 8 })
    ∧ (w.state = .dirRead → w.second = true → w.dirPresent = true →
      ∃ t x, exec (.walkAccessEnd (.ready sd)) s = .next t ∧ next t (readWord x)
        ∧ x.toNat = t.walker.tableBase.toNat * 256 + 4 * (v.toNat / 2048 % 64)
        ∧ t.walker = { w with
            state := .pageRead, second := false,
            tableBase := sd.extractLsb' 0 8 ++ w.tableBase.extractLsb' 0 8 })
    ∧ (w.state = .pageRead → w.second = false →
      ∃ t x, exec (.walkAccessEnd (.ready sd)) s = .next t ∧ next t (readWord x)
        ∧ x.toNat = w.tableBase.toNat * 256 + 4 * (v.toNat / 2048 % 64) + 2
        ∧ t.walker = { w with second := true, pageLow := sd })
    ∧ (w.state = .pageRead → w.second = true → w.pageLow.getLsbD 0 = true →
        ¬ (writes ∧ (w.pageLow.getLsbD 1 = false ∨ w.readOnly = true)) → w.tracking = true →
        (w.trackUsed = true ∧ w.pageLow.getLsbD 2 = false)
          ∨ (w.trackWritten = true ∧ writes ∧ w.pageLow.getLsbD 3 = false) →
      ∃ t x, exec (.walkAccessEnd (.ready sd)) s = .next t
        ∧ next t (writeWord x (w.pageLow ||| (if w.trackWritten = true ∧ writes then 0x000C#16 else 0x0004#16)))
        ∧ x.toNat = w.tableBase.toNat * 256 + 4 * (v.toNat / 2048 % 64)
        ∧ t.walker = { w with
            state := .pageUpdate, frame := sd.extractLsb' 0 8 ++ w.pageLow.extractLsb' 11 5 })

/-- WALK_ACCESS_END ends a walk that is not stale. A probe walk's translation, absences, denial and bus error are the probe's
answer, with the CMD cause, nothing installed and no write made. An Engine walk ends with a translation when its write-back
completes, or without one where tracking is not due: the translation is installed and handed to the Engine, which goes on
with its fetch or its writeback there, or with its beat: the read side of a COPY or EMIT answered, with the lookup of its
destination or the check of its port; the write side answered, with the first access. Its absences, its denial and its bus
error are faults of the action that asked. At the end of a walk the requests that wait stand (R22 to R25, R27 to R29, R34,
R35, R57, R63, R64, R70, R71, R109 to R112, R114). That the walker is IDLE while a request waits for the step WALK_START is
the model's choice (log entry 3), and so is the tenure that an OWNER keeps for a waiting walk of a fetch or a writeback (log
entry 19). -/
def Obligations.WalkEndsInItsOutcome : Prop :=
  ∀ (s : State) (a : Access) (sd : Word), s.Carrying .walker a → a.width = .word → s.walker.stale = false →
    let w := s.walker
    let frame : Frame := sd.extractLsb' 0 8 ++ w.pageLow.extractLsb' 11 5
    let writes : Prop := w.request.access = .write ∨ w.request.access = .writeback
    let denied : Prop := writes ∧ (w.pageLow.getLsbD 1 = false ∨ w.readOnly = true)
    let due : Prop := w.tracking = true ∧ ((w.trackUsed = true ∧ w.pageLow.getLsbD 2 = false)
      ∨ (w.trackWritten = true ∧ writes ∧ w.pageLow.getLsbD 3 = false))
    let rests (t : State) : Prop :=
      t.walker.state = .idle ∧ t.walker.stale = false ∧ t.walker.engineWaiting = w.engineWaiting
      ∧ t.walker.probeWaiting = w.probeWaiting
    let answered (t : State) (r : ProbeResult) : Prop :=
      rests t
      ∧ t = State.settleBus { s with
          walker := t.walker, sbi := s.sbi.ended
          window := { s.window with busy := false, cmdCause := true, probe := r } }
    let failing (e : BusEnd) (k : FaultKind) : Prop :=
      (e = .busError ∧ k = .busError)
      ∨ (e = .ready sd ∧ w.second = true
        ∧ ((w.state = .dirRead ∧ w.dirPresent = false ∧ k = .dirAbsent)
          ∨ (w.state = .pageRead ∧ w.pageLow.getLsbD 0 = false ∧ k = .pageAbsent)
          ∨ (w.state = .pageRead ∧ w.pageLow.getLsbD 0 = true ∧ denied ∧ k = .writeDenied)))
    let translating (f : Frame) (written : Bool) : Prop :=
      (w.state = .pageRead ∧ w.second = true ∧ w.pageLow.getLsbD 0 = true ∧ ¬ denied ∧ ¬ due ∧ f = frame
        ∧ written = w.pageLow.getLsbD 3)
      ∨ (w.state = .pageUpdate ∧ f = w.frame
        ∧ written = ((w.trackWritten && (w.request.access == .write || w.request.access == .writeback))
            || w.pageLow.getLsbD 3))
    (w.requester = .probe →
      (∀ e k, failing e k → ∃ t, exec (.walkAccessEnd e) s = .next t ∧ answered t { ProbeResult.reset with
          outcome := match k with
            | .dirAbsent => .dirAbsent
            | .pageAbsent => .pageAbsent
            | .writeDenied => .writeDenied
            | _ => .busError })
      ∧ (w.state = .pageRead → w.second = true → w.pageLow.getLsbD 0 = true → ¬ denied → w.tracking = false →
        ∃ t, exec (.walkAccessEnd (.ready sd)) s = .next t ∧ answered t
          { outcome := .translated, address := frame ++ w.request.vaddr.extractLsb' 0 11, hit := false,
            writable := w.pageLow.getLsbD 1 && !w.readOnly, writtenKnown := w.pageLow.getLsbD 3 }))
    ∧ (w.requester = .engine →
      (∀ f written, translating f written →
        let p : PAddr := f ++ w.request.vaddr.extractLsb' 0 11
        ∃ u : State, u = { s with walker := u.walker, cache := u.cache, sbi := s.sbi.ended }
          ∧ rests u
          ∧ u.cache = (s.install
              { domain := w.request.domain, vpn := vpnOf w.request.vaddr, frame := f,
                writable := w.pageLow.getLsbD 1 && !w.readOnly, writtenKnown := written }).cache
          ∧ exec (.walkAccessEnd (.ready sd)) s = .next (u.engineAnswer (.translated p)).settleBus
          ∧ (s.engine.service = .fetch → exec (.walkAccessEnd (.ready sd)) s =
              .next { u with sbi := (s.sbi.ended.handOver .engine (readWord p)).settle })
          ∧ (∀ c : ChannelId, s.engine.server = .channel c → s.engine.service = .writeback →
              exec (.walkAccessEnd (.ready sd)) s = .next { u with
                sbi := (s.sbi.ended.handOver .engine
                  { space := .memory, width := .byte, address := p,
                    write := some (match s.channels[c].code with | .complete => 1 | .skipped => 2) }).settle })
          ∧ ∀ c : ChannelId, s.engine.server = .channel c → s.engine.service = .move →
            let kind := s.channels[c].control.toNat % 4
            (kind = 0 ∨ kind = 2 → s.engine.readAt = none →
              ReadSideAnswered (exec (.walkAccessEnd (.ready sd)) s) true
                { u with engine := { s.engine with readAt := some p } } c)
            ∧ ((kind = 0 ∧ s.engine.readAt ≠ none) ∨ kind = 1 ∨ kind = 3 →
              FirstAccessIssued (exec (.walkAccessEnd (.ready sd)) s) true
                { u with engine := { s.engine with writeAt := some p } } c))
      ∧ ∀ (e : BusEnd) (k : FaultKind) (c : ChannelId) (acc : FaultAccess) (addr : BitVec 22), failing e k →
        s.engine.server = .channel c →
        let x := s.channels[c]
        let kind := x.control.toNat % 4
        let readSide : Prop := (kind = 0 ∨ kind = 2) ∧ s.engine.readAt = none
        (s.engine.service = .fetch ∧ acc = .fetch
            ∧ addr = x.descriptor.extractLsb' 0 22 + BitVec.ofNat 22 (2 * s.engine.fetched.length))
          ∨ (s.engine.service = .move ∧ readSide ∧ acc = .read ∧ addr = x.source.extractLsb' 0 22)
          ∨ (s.engine.service = .move ∧ ¬ readSide ∧ acc = .write ∧ addr = x.dest.extractLsb' 0 22)
          ∨ (s.engine.service = .writeback ∧ acc = .writeback ∧ addr = x.descriptor.extractLsb' 0 22 + 1) →
        ∃ t, exec (.walkAccessEnd e) s = .next t ∧ rests t
          ∧ Reported s t c (recordOf s c k acc addr)
          ∧ t = { s with
              walker := t.walker, sbi := s.sbi.ended.settle, engine := Engine.free, queue := t.queue,
              channels := t.channels })

/-- A stale walk drops its result, however its access ends. In NORMAL, its page within the limit, it begins again: the record
read afresh, the stale flag clear, and the first directory word read issued. In any other mode an Engine walk ends with no
outcome and the channel's service ends READY in the phase it had, with nothing installed and no fault. The requests that wait
stand (R34, R52, R54, R95, R117). That an access still pending at the mark is carried to its end first is the model's choice
(log entry 20). -/
def Obligations.StaleWalkBeginsAgain : Prop :=
  ∀ (s : State) (a : Access) (e : BusEnd), s.Carrying .walker a → s.walker.stale = true →
    let r := s.walker.request
    let d := s.domains[r.domain]
    (s.urgent.mode = .normal → vpnOf r.vaddr ≤ d.pageLimit → ∃ t x, exec (.walkAccessEnd e) s = .next t
      ∧ t.walker.state = .dirRead ∧ t.walker.second = false ∧ t.walker.stale = false
      ∧ t.walker.requester = s.walker.requester ∧ t.walker.request = r
      ∧ t.walker.tracking = (s.walker.requester == .engine)
      ∧ t.walker.dirBase = d.dirBase ∧ t.walker.pageLimit = d.pageLimit ∧ t.walker.readOnly = d.readOnly
      ∧ t.walker.trackUsed = d.trackUsed ∧ t.walker.trackWritten = d.trackWritten
      ∧ t.walker.engineWaiting = s.walker.engineWaiting ∧ t.walker.probeWaiting = s.walker.probeWaiting
      ∧ x.toNat = d.dirBase.toNat * 128 + 4 * (r.vaddr.toNat / 131072)
      ∧ t = { s with walker := t.walker, sbi := (s.sbi.ended.handOver .walker (readWord x)).settle })
    ∧ (s.urgent.mode ≠ .normal → s.walker.requester = .engine → ∀ c : ChannelId, s.engine.server = .channel c →
        s.engine.service ≠ .none →
      ∃ t, exec (.walkAccessEnd e) s = .next t ∧ t.walker.state = .idle ∧ t.walker.stale = false
        ∧ t.walker.engineWaiting = s.walker.engineWaiting ∧ t.walker.probeWaiting = s.walker.probeWaiting
        ∧ t = { s with
            walker := t.walker, sbi := s.sbi.ended.settle, engine := Engine.free
            channels := s.channels.set c (s.channels[c].afterService .ready) })

/-- No walk starts outside NORMAL: an IDLE walker stays IDLE through every command (R36). -/
def Obligations.NoWalkStartsOutsideNormal : Prop :=
  ∀ (i : Instr) (s t : State), s.urgent.mode ≠ .normal → s.walker.state = .idle → exec i s = .next t →
    t.walker.state = .idle

/-! ### Channel commands and the fault queue -/

/-- CH_START binds an IDLE or DONE channel and loads the empty element; the channel's done flag is cleared, and no other channel
and nothing else changes (R87, R88). -/
def Obligations.ChStartStarts : Prop :=
  ∀ (hi : Byte) (s : State) (c : ChannelId) (d : DomainId) (line : Option (Fin 8)), s.TakesChannel c →
    (s.channels[c].state = .idle ∨ s.channels[c].state = .done) →
    s.window.args.arg1.toNat % 256 = d.val →
    s.window.args.arg1.toNat / 1024 % 4 = 0 →
    s.window.args.arg1.toNat / 4096 = (match line with | some n => n.val | none => 15) →
    1 ≤ s.window.args.arg3.toNat / 256 → s.window.args.arg3.toNat / 256 ≤ 16 →
    s.window.args.arg3.toNat / 64 % 4 = 0 → s.window.args.arg2.toNat % 16 = 0 →
    s.domains[d].state = .opened →
    ∃ t, exec (.chStart hi) s = .next t
      ∧ t.channels[c].state = .ready ∧ t.channels[c].phase = .fetch ∧ t.channels[c].domain = d
      ∧ t.channels[c].priority.val = s.window.args.arg1.toNat / 256 % 4 ∧ t.channels[c].line = line
      ∧ t.channels[c].burst.toNat = s.window.args.arg3.toNat / 256
      ∧ t.channels[c].descriptor.toNat = s.window.args.arg3.toNat % 64 * 65536 + s.window.args.arg2.toNat
      ∧ t.channels[c] = { t.channels[c] with
          control := 0, count := 1, origSource := 0, origDest := 0, remaining := 0, source := 0, dest := 0, next := 0,
          code := .complete, pendingHalt := false, pendingAbort := false, completion := .none,
          held := s.channels[c].held }
      ∧ (∀ n : ChannelId, t.doneFlag n = (s.doneFlag n && n != c))
      ∧ t = { s.recorded 0x07 .ok with
          channels := s.channels.set c t.channels[c]
          window := { (s.recorded 0x07 .ok).window with done := t.window.done } }

/-- CH_HALT stops a READY or WAIT_REQ channel at once and sets the pending halt of an ACTIVE one. CH_CONTINUE makes a HALTED or
FAULTED channel READY and changes nothing else: its phase and fields stand, and its fault records stay in the queue (R89, R90,
R91). -/
def Obligations.ChHaltHaltsChContinueReadies : Prop :=
  ∀ (hi : Byte) (s : State) (c : ChannelId), s.TakesChannel c →
    (s.channels[c].state = .ready ∨ s.channels[c].state = .waitReq →
      exec (.chHalt hi) s = .next
        ({ s with channels := s.channels.set c { s.channels[c] with state := .halted } }.recorded 0x08 .ok))
    ∧ (s.channels[c].state = .active →
      exec (.chHalt hi) s = .next
        ({ s with channels := s.channels.set c { s.channels[c] with pendingHalt := true } }.recorded 0x08 .ok))
    ∧ (s.channels[c].state = .halted ∨ s.channels[c].state = .faulted →
      exec (.chContinue hi) s = .next
        ({ s with channels := s.channels.set c { s.channels[c] with state := .ready } }.recorded 0x09 .ok))

/-- CH_SKIP of a HALTED or FAULTED channel: in MOVE the element is abandoned for a writeback of SKIPPED; in WRITEBACK the
writeback is dropped and the channel advances, its done flag set where the control has NOTIFY or END (R72, R73, R92). -/
def Obligations.ChSkipSkips : Prop :=
  ∀ (hi : Byte) (s : State) (c : ChannelId), s.TakesChannel c →
    (s.channels[c].state = .halted ∨ s.channels[c].state = .faulted) →
    let x := s.channels[c]
    (x.phase = .move →
      exec (.chSkip hi) s = .next
        ({ s with channels :=
            s.channels.set c { x with phase := .writeback, code := .skipped, state := .ready } }.recorded 0x0A .ok))
    ∧ (x.phase = .writeback → ∃ t, exec (.chSkip hi) s = .next t
      ∧ (x.control.getLsbD 3 = false →
          t.channels = s.channels.set c { x with state := .ready, phase := .fetch, descriptor := x.next })
      ∧ (x.control.getLsbD 3 = true →
          t.channels = s.channels.set c { x with state := .done, completion := .complete })
      ∧ (∀ n : ChannelId, t.doneFlag n =
          (s.doneFlag n || (n == c && (x.control.getLsbD 4 || x.control.getLsbD 3))))
      ∧ t = { s.recorded 0x0A .ok with
          channels := t.channels
          window := { (s.recorded 0x0A .ok).window with done := t.window.done } })
    ∧ (x.phase = .fetch → exec (.chSkip hi) s = .next (s.recorded 0x0A .badState))

/-- CH_ABORT makes every channel that is neither IDLE nor ACTIVE IDLE with completion code ABORTED and discards its held record,
and sets the pending abort of an ACTIVE one. Queue, done flags and all other fields stand (R93). -/
def Obligations.ChAbortAborts : Prop :=
  ∀ (hi : Byte) (s : State) (c : ChannelId), s.TakesChannel c →
    (s.channels[c].state ≠ .idle → s.channels[c].state ≠ .active →
      exec (.chAbort hi) s = .next
        ({ s with channels := s.channels.set c { s.channels[c] with
            state := .idle, completion := .aborted, held := none, pendingHalt := false,
            pendingAbort := false } }.recorded 0x0B .ok))
    ∧ (s.channels[c].state = .active →
      exec (.chAbort hi) s = .next
        ({ s with channels := s.channels.set c { s.channels[c] with pendingAbort := true } }.recorded 0x0B .ok))

/-- The refusals of the channel commands: by mode, by channel number, by state; and CH_START's by domain number, by argument and
by a CLOSED domain, in the order of R86 and R87. A refused command changes nothing but what taking it records. -/
def Obligations.ChannelCommandRefusals : Prop :=
  ∀ (hi : Byte) (s : State), s.TakesCommands →
    let commands : List (Instr × Byte) :=
      [(.chStart hi, 0x07), (.chHalt hi, 0x08), (.chContinue hi, 0x09), (.chSkip hi, 0x0A), (.chAbort hi, 0x0B)]
    (∀ k ∈ commands,
      (s.urgent.mode ≠ .normal → exec k.1 s = .next (s.recorded k.2 .engineUnavailable))
      ∧ (s.urgent.mode = .normal → 8 ≤ s.window.args.arg0.toNat → exec k.1 s = .next (s.recorded k.2 .badChannel)))
    ∧ ∀ c : ChannelId, s.TakesChannel c →
      let st := s.channels[c].state
      (st ≠ .idle → st ≠ .done → exec (.chStart hi) s = .next (s.recorded 0x07 .badState))
      ∧ (st ∉ [.ready, .waitReq, .active] → exec (.chHalt hi) s = .next (s.recorded 0x08 .badState))
      ∧ (st ∉ [.halted, .faulted] →
          exec (.chContinue hi) s = .next (s.recorded 0x09 .badState)
          ∧ exec (.chSkip hi) s = .next (s.recorded 0x0A .badState))
      ∧ (st = .idle → exec (.chAbort hi) s = .next (s.recorded 0x0B .badState))
      ∧ (st = .idle ∨ st = .done →
          (16 ≤ s.window.args.arg1.toNat % 256 → exec (.chStart hi) s = .next (s.recorded 0x07 .badDomain))
          ∧ ∀ d : DomainId, s.window.args.arg1.toNat % 256 = d.val →
            let line := s.window.args.arg1.toNat / 4096
            let burst := s.window.args.arg3.toNat / 256
            let bad := s.window.args.arg1.toNat / 1024 % 4 ≠ 0 ∨ (8 ≤ line ∧ line ≠ 15) ∨ burst = 0 ∨ 16 < burst
              ∨ s.window.args.arg3.toNat / 64 % 4 ≠ 0 ∨ s.window.args.arg2.toNat % 16 ≠ 0
            (bad → exec (.chStart hi) s = .next (s.recorded 0x07 .badArgument))
            ∧ (¬ bad → s.domains[d].state = .closed → exec (.chStart hi) s = .next (s.recorded 0x07 .badState)))

/-- FQ_POP: outside NORMAL refused; on an empty queue OK without effect; otherwise the head leaves, and where a channel is in
FAULT_WAIT the lowest-numbered one is FAULTED and its held record joins the tail (R126, R127). -/
def Obligations.FqPopWakesLowestWaiting : Prop :=
  ∀ (hi : Byte) (s : State), s.TakesCommands →
    (s.urgent.mode ≠ .normal → exec (.fqPop hi) s = .next (s.recorded 0x0C .engineUnavailable))
    ∧ (s.urgent.mode = .normal → s.queue = [] → exec (.fqPop hi) s = .next (s.recorded 0x0C .ok))
    ∧ ∀ (r : FaultRecord) (rest : List FaultRecord), s.urgent.mode = .normal → s.queue = r :: rest →
      ((∀ c : ChannelId, s.channels[c].state ≠ .faultWait) →
        exec (.fqPop hi) s = .next ({ s with queue := rest }.recorded 0x0C .ok))
      ∧ ∀ (c : ChannelId) (h : FaultRecord), s.channels[c].state = .faultWait → s.channels[c].held = some h →
        (∀ c' : ChannelId, c' < c → s.channels[c'].state ≠ .faultWait) →
        exec (.fqPop hi) s = .next ({ s with
          queue := rest ++ [h]
          channels := s.channels.set c { s.channels[c] with state := .faulted, held := none } }.recorded 0x0C .ok)

/-- Law 4 is kept by every step. -/
def Obligations.QueueLawKept : Prop := ∀ s t : State, QueueLaw s → step s = .next t → QueueLaw t

/-- The service law is kept by every step: a normal channel is ACTIVE exactly while the Engine serves it, and the Engine serves
only whom the mode allows. -/
def Obligations.ServiceLawKept : Prop := ∀ s t : State, ServiceLaw s → step s = .next t → ServiceLaw t

/-- Law 10, with the facts that carry it, is kept by every step. -/
def Obligations.CountsLawKept : Prop := ∀ s t : State, CountsLaw s → step s = .next t → CountsLaw t

/-! ### Scheduling, pacing and the Engine -/

/-- SCHEDULER_GRANT grants the first READY channel, counted cyclically from the pointer plus 1, of the highest class that has
one: it becomes ACTIVE, the pointer of its class takes its number, its service begins, and no other channel and no other
pointer changes. A FETCH whose descriptor address is no multiple of 16, or above 3FFFF0H, ends in a DESC_FORMAT record before
any lookup or access. With its pages cached, a FETCH has its first word read issued; a WRITEBACK the byte write of 1 for
COMPLETE or 2 for SKIPPED at the descriptor address plus 1; a MOVE the first access of its first beat: the read of a COPY,
the write of the pattern of a FILL. A lookup that misses, or needs an update walk, asks the walker; a writeback or a beat's
write to a read-only page ends in WRITE_DENIED; and the first beat of a MOVE of each kind makes its checks in order. A paced
MOVE whose line is low waits for it. Without a READY channel, outside NORMAL, with the Engine in use or an engine reset in
progress there is no grant (R30, R34, R41, R42, R60, R63, R70, R71, R84, R103, R107 to R112, R114). That the grant and the
walk's start are steps of their own, and that the grant's sampled lines are its operand, is the model's choice (log entries 3
and 5). So is that the sample wakes no WAIT_REQ channel, whose wake is the row LINE_ASSERTED (log entry 5). -/
def Obligations.SchedulerGrantsByClassAndTurn : Prop :=
  (∀ (preq : BitVec 8) (s : State) (c : ChannelId), s.Running → s.engine.service = .none → s.urgent.mode = .normal →
    s.window.resetting = false → s.channels[c].state = .ready →
    (∀ n : ChannelId, s.channels[n].state = .ready → s.channels[n].priority ≤ s.channels[c].priority) →
    (∀ n : ChannelId, s.channels[n].state = .ready → s.channels[n].priority = s.channels[c].priority →
      c - s.pointers[s.channels[c].priority] - 1 ≤ n - s.pointers[s.channels[c].priority] - 1) →
    let x := s.channels[c]
    let kind := x.control.toNat % 4
    let width : Width := if x.control.getLsbD 2 = true then .word else .byte
    let held (v : VAddr) (w : Fin 4) : Prop := hitWay s.cache[setOf (vpnOf v)] x.domain (vpnOf v) = some w
    let at_ (v : VAddr) (w : Fin 4) : PAddr := s.cache[setOf (vpnOf v)][w].frame ++ v.extractLsb' 0 11
    let writable (v : VAddr) (w : Fin 4) : Prop :=
      s.cache[setOf (vpnOf v)][w].writable = true
      ∧ (s.cache[setOf (vpnOf v)][w].writtenKnown = true ∨ s.domains[x.domain].trackWritten = false)
    let paced : Prop := kind = 1 ∨ kind = 2
    let placed : Prop := x.descriptor.toNat % 16 = 0 ∧ x.descriptor.toNat ≤ 0x3FFFF0
    let moving : Prop := x.phase = .move ∧ 1 ≤ x.remaining.toNat ∧ 1 ≤ x.burst.toNat
    let g : State := { s with
      pins := { s.pins with preq := preq }
      channels := s.channels.set c { x with state := .active }
      pointers := s.pointers.set x.priority c }
    ∃ t, exec (.schedulerGrant preq) s = .next t
      ∧ t = g.serviceBegin (.channel c) x.phase
      ∧ t.pointers = s.pointers.set x.priority c
      ∧ (∀ n : ChannelId, n ≠ c → t.channels[n] = s.channels[n])
      ∧ (x.phase = .fetch → ¬ placed →
          Reported s t c (recordOf s c .descFormat .fetch (x.descriptor.extractLsb' 0 22))
          ∧ t = { g with engine := Engine.free, queue := t.queue, channels := t.channels })
      ∧ (∀ w : Fin 4, x.phase = .fetch → placed →
          let v : VAddr := x.descriptor.extractLsb' 0 22
          held v w → t = { g with
            cache := (s.touch (setOf (vpnOf v)) w).cache
            engine := { Engine.free with service := .fetch, server := .channel c }
            sbi := s.sbi.handOver .engine (readWord (at_ v w)) })
      ∧ (∀ w : Fin 4, x.phase = .writeback →
          let v : VAddr := x.descriptor.extractLsb' 0 22 + 1
          held v w → writable v w → t = { g with
            cache := (s.touch (setOf (vpnOf v)) w).cache
            engine := { Engine.free with service := .writeback, server := .channel c }
            sbi := s.sbi.handOver .engine
              { space := .memory, width := .byte, address := at_ v w,
                write := some (match x.code with | .complete => 1 | .skipped => 2) } })
      ∧ (∀ w w' : Fin 4, moving → kind = 0 →
          let v : VAddr := x.source.extractLsb' 0 22
          let v' : VAddr := x.dest.extractLsb' 0 22
          held v w → held v' w' → writable v' w' → t = { g with
            cache := ((s.touch (setOf (vpnOf v)) w).touch (setOf (vpnOf v')) w').cache
            engine := { Engine.free with
              service := .move, server := .channel c, stage := .read, readAt := some (at_ v w),
              writeAt := some (at_ v' w') }
            sbi := s.sbi.handOver .engine
              { space := .memory, width := width, address := at_ v w, write := none } })
      ∧ (∀ w : Fin 4, moving → kind = 3 →
          let v : VAddr := x.dest.extractLsb' 0 22
          let pattern : Word :=
            if x.control.getLsbD 2 = true then x.source.extractLsb' 0 16 else (x.source.extractLsb' 0 8).setWidth 16
          held v w → writable v w → t = { g with
            cache := (s.touch (setOf (vpnOf v)) w).cache
            engine := { Engine.free with
              service := .move, server := .channel c, stage := .write, writeAt := some (at_ v w),
              datum := some pattern }
            sbi := s.sbi.handOver .engine
              { space := .memory, width := width, address := at_ v w, write := some pattern } })
      ∧ (x.phase = .fetch → placed →
          LookedUp (.next t) false { g with engine := { Engine.free with service := .fetch, server := .channel c } } c
            (x.descriptor.extractLsb' 0 22) .fetch .fetch
            (fun h p => t = { h with sbi := s.sbi.handOver .engine (readWord p) }))
      ∧ (x.phase = .writeback →
          LookedUp (.next t) false { g with engine := { Engine.free with service := .writeback, server := .channel c } } c
            (x.descriptor.extractLsb' 0 22 + 1) .writeback .writeback
            (fun h p => t = { h with
              sbi := s.sbi.handOver .engine
                { space := .memory, width := .byte, address := p,
                  write := some (match x.code with | .complete => 1 | .skipped => 2) } }))
      ∧ (moving → (∀ n : Fin 8, paced → x.line = some n → preq.getLsbD n.val = true) →
          BeatChecked (.next t) false { g with engine := { Engine.free with service := .move, server := .channel c } } c)
      ∧ ∀ n : Fin 8, moving → paced → x.line = some n → preq.getLsbD n.val = false → s.NoPending c →
          t = { g with engine := Engine.free, channels := s.channels.set c { x with state := .waitReq } })
  ∧ ∀ (preq : BitVec 8) (s : State), s.Running →
    (s.engine.service ≠ .none ∨ s.urgent.mode ≠ .normal ∨ s.window.resetting = true
      ∨ ∀ c : ChannelId, s.channels[c].state ≠ .ready) →
    exec (.schedulerGrant preq) s = .next { s with pins := { s.pins with preq := preq } }

/-- Law 8 at the check of the first beat of a grant. The first beat of an INGEST that SCHEDULER_GRANT begins, and of an EMIT
whose source page is cached, bound to no line or to one that is asserted, finds its port granted or not: the named port's
bit, and for a word the next port's too. Withheld, the beat ends in PORT_DENIED at the named port and no access is issued;
granted, an EMIT's first access is issued, and an INGEST looks its destination up: with its page writable and its Written bit
known the first access is issued, and otherwise the lookup asks the walker or fails. An EMIT whose source page is not cached
asks the walker first (R4, R30, R34, R42, R84, R109 to R112, R114). That the sampled lines are an operand (log entry 5), and
that a walk's start is a step of its own (log entry 3), is the model's choice. -/
def Obligations.PortBeatsNeedTheGrant : Prop :=
  ∀ (preq : BitVec 8) (s : State) (c : ChannelId), s.Running → s.engine.service = .none → s.urgent.mode = .normal →
    s.window.resetting = false → s.channels[c].state = .ready →
    (∀ n : ChannelId, n ≠ c → s.channels[n].state ≠ .ready) →
    s.channels[c].phase = .move → 1 ≤ s.channels[c].remaining.toNat → 1 ≤ s.channels[c].burst.toNat →
    (∀ n : Fin 8, s.channels[c].line = some n → preq.getLsbD n.val = true) →
    let x := s.channels[c]
    let word : Prop := x.control.getLsbD 2 = true
    let granted (p : Port) : Prop := s.portGranted x.domain p = true ∧ (word → s.portGranted x.domain (p + 1) = true)
    let denied (a : FaultAccess) (p : Port) : Prop :=
      ∃ t, exec (.schedulerGrant preq) s = .next t ∧ t.sbi = s.sbi ∧ t.engine = Engine.free
        ∧ Reported s t c (recordOf s c .portDenied a (p.setWidth 22))
    let issued (sp : Space) (p : PAddr) : Prop :=
      ∃ t, exec (.schedulerGrant preq) s = .next t
        ∧ t.sbi = s.sbi.handOver .engine
            { space := sp, width := if word then .word else .byte, address := p, write := none }
        ∧ t.queue = s.queue ∧ t.channels[c] = { x with state := .active }
    let g : State := { s with
      pins := { s.pins with preq := preq }
      channels := s.channels.set c { x with state := .active }
      pointers := s.pointers.set x.priority c
      engine := { Engine.free with service := .move, server := .channel c } }
    (x.control.toNat % 4 = 1 →
      let p : Port := x.source.extractLsb' 0 8
      let v : VAddr := x.dest.extractLsb' 0 22
      (¬ granted p → denied .portRead p)
      ∧ (∀ w : Fin 4, granted p → hitWay s.cache[setOf (vpnOf v)] x.domain (vpnOf v) = some w →
          s.cache[setOf (vpnOf v)][w].writable = true → s.cache[setOf (vpnOf v)][w].writtenKnown = true →
          issued .port (p.setWidth 24))
      ∧ (granted p → WriteSideLookedUp (exec (.schedulerGrant preq) s) false g c))
    ∧ (x.control.toNat % 4 = 2 →
      let p : Port := x.dest.extractLsb' 0 8
      let v : VAddr := x.source.extractLsb' 0 22
      (hitWay s.cache[setOf (vpnOf v)] x.domain (vpnOf v) = none →
        AsksWalker (exec (.schedulerGrant preq) s) false g c v .read)
      ∧ ∀ w : Fin 4, hitWay s.cache[setOf (vpnOf v)] x.domain (vpnOf v) = some w →
        (¬ granted p → denied .portWrite p)
        ∧ (granted p → issued .memory (s.cache[setOf (vpnOf v)][w].frame ++ v.extractLsb' 0 11)))

/-- LINE_ASSERTED makes exactly the WAIT_REQ channels bound to the line READY, in NORMAL with no engine reset in progress; in
every other mode the channels stand (R85). The line's remembered level is the model's own (log entry 5). So is that the wake
waits for this row, whatever another row's sample of the line shows (log entry 5). -/
def Obligations.LineAssertedWakesItsChannels : Prop :=
  ∀ (n : Fin 8) (s : State), s.Running →
    ∃ t, exec (.lineAsserted n) s = .next t
      ∧ (∀ c : ChannelId, t.channels[c] =
          if s.urgent.mode = .normal ∧ s.window.resetting = false ∧ s.channels[c].state = .waitReq
              ∧ s.channels[c].line = some n then
            { s.channels[c] with state := .ready }
          else s.channels[c])
      ∧ t = { s with channels := t.channels, pins := { s.pins with preq := t.pins.preq } }

/-- FETCH_READ_END with ready: a word before the eighth is kept. For U the next word's read is issued at its position; for a
channel the next word is looked up: a hit issues its read, a miss asks the walker in NORMAL (an OWNER keeping the bus for it)
and ends the service READY in FETCH in any other mode. The eighth word of a descriptor that passes its checks loads the
element: a channel is then READY in MOVE, and U goes on to its first beat, its sides at bits 23 to 0 of the element's
addresses, a FILL's pattern its datum. One that fails gives a channel a DESC_FORMAT record at the descriptor address and
loads nothing, and stops U in URGENT_HOLD (R41, R64, R65, R67, R75, R82, R95, R112, R118, R146, R147, R149, R170). That a
miss waits for the step WALK_START (log entry 3), and that an OWNER keeps the bus for a fetch's walk until then (log entry
19), is the model's choice, and so is the address that a port side of U holds (log entry 17). -/
def Obligations.FetchLoadsTheDescriptor : Prop :=
  ∀ (s : State) (a : Access) (sd : Word), s.Carrying .engine a → a.width = .word → s.engine.service = .fetch →
    let kept : Engine := { s.engine with fetched := s.engine.fetched ++ [sd] }
    (s.engine.server = .urgent → s.engine.fetched.length < 7 →
      ∃ t x, exec (.fetchReadEnd (.ready sd)) s = .next t
        ∧ x = s.urgent.u.position.extractLsb' 0 24 + BitVec.ofNat 24 (2 * (s.engine.fetched.length + 1))
        ∧ t = { s with engine := kept, sbi := (s.sbi.ended.handOver .engine (readWord x)).settle })
    ∧ (∀ c : ChannelId, s.engine.server = .channel c → s.engine.fetched.length < 7 →
      let d := s.channels[c].domain
      let v : VAddr := s.channels[c].descriptor.extractLsb' 0 22 + BitVec.ofNat 22 (2 * (s.engine.fetched.length + 1))
      (∀ w : Fin 4, hitWay s.cache[setOf (vpnOf v)] d (vpnOf v) = some w →
        exec (.fetchReadEnd (.ready sd)) s = .next { s with
          engine := kept, cache := (s.touch (setOf (vpnOf v)) w).cache
          sbi := (s.sbi.ended.handOver .engine
            (readWord (s.cache[setOf (vpnOf v)][w].frame ++ v.extractLsb' 0 11))).settle })
      ∧ (hitWay s.cache[setOf (vpnOf v)] d (vpnOf v) = none →
        (s.urgent.mode = .normal → exec (.fetchReadEnd (.ready sd)) s = .next { s with
          engine := kept
          walker := { s.walker with engineWaiting := some { domain := d, vaddr := v, access := .fetch } }
          sbi := if s.walker.state = .idle ∧ s.sbi.granted = true ∧ s.sbi.anyPending = false then s.sbi.ended
            else s.sbi.ended.settle })
        ∧ (s.urgent.mode ≠ .normal → exec (.fetchReadEnd (.ready sd)) s = .next { s with
          engine := Engine.free, sbi := s.sbi.ended.settle
          channels := s.channels.set c (s.channels[c].afterService .ready) })))
    ∧ ∀ (w0 w1 w2 w3 w4 w5 w6 : Word), s.engine.fetched = [w0, w1, w2, w3, w4, w5, w6] →
      let d : Descriptor :=
        { control := w0.extractLsb' 0 8, count := w1, source := w3 ++ w2, dest := w5 ++ w4, next := sd ++ w6 }
      (∀ c : ChannelId, s.engine.server = .channel c →
        (d.formatOk (.channel c) = true →
          exec (.fetchReadEnd (.ready sd)) s = .next { s with
            engine := Engine.free, sbi := s.sbi.ended.settle
            channels := s.channels.set c (Channel.afterService { s.channels[c] with
              control := d.control, count := d.count, origSource := d.source, source := d.source, origDest := d.dest,
              dest := d.dest, remaining := d.count, next := d.next, code := .complete, phase := .move } .ready) })
        ∧ (d.formatOk (.channel c) = false →
          ∃ t, exec (.fetchReadEnd (.ready sd)) s = .next t
            ∧ Reported s t c (recordOf s c .descFormat .fetch (s.channels[c].descriptor.extractLsb' 0 22))
            ∧ t = { s with
                engine := Engine.free, sbi := s.sbi.ended.settle, queue := t.queue, channels := t.channels }))
      ∧ (s.engine.server = .urgent →
        (d.formatOk .urgent = true → ∃ t, exec (.fetchReadEnd (.ready sd)) s = .next t
          ∧ t.urgent = { s.urgent with u := { s.urgent.u with
              control := d.control, remaining := d.count, source := d.source, dest := d.dest, next := d.next,
              code := .complete, phase := .move } }
          ∧ t = { s with
              engine := urgentBeatEngine { Engine.free with service := .move, server := .urgent } d.element
              urgent := t.urgent
              sbi := (s.sbi.ended.handOver .engine (urgentBeatAccess d.element)).settle })
        ∧ (d.formatOk .urgent = false → exec (.fetchReadEnd (.ready sd)) s = .next { s with
            engine := Engine.free, sbi := s.sbi.ended.settle
            urgent := { s.urgent with mode := .urgentHold, fault := .descFormat }
            window := { s.window with urgentCause := true } }))

/-- The format checks of R65 and R66, said with numbers, for each of the four element kinds, of a normal channel and of U, whose
space ends at FFFFFFH and whose HOLD is not checked (R75). -/
def Obligations.DescriptorChecksInNumbers : Prop :=
  ∀ (who : Server) (d : Descriptor),
    let top : Nat := match who with | .channel _ => 0x3FFFFF | .urgent => 0xFFFFFF
    let w : Nat := if d.control.getLsbD 2 = true then 2 else 1
    let common : Prop :=
      d.control.toNat / 64 = 0 ∧ (who ≠ .urgent → d.control.getLsbD 5 = false) ∧ 1 ≤ d.count.toNat
      ∧ (d.control.getLsbD 3 = true ∨ (d.next.toNat % 16 = 0 ∧ d.next.toNat ≤ top - 15))
    let memory (a : Long) : Prop := a.toNat % w = 0 ∧ a.toNat + d.count.toNat * w - 1 ≤ top
    let port (p : Long) : Prop := p.toNat ≤ 0xFF ∧ p.toNat % w = 0
    (d.control.toNat % 4 = 0 → (d.formatOk who = true ↔ common ∧ memory d.source ∧ memory d.dest))
    ∧ (d.control.toNat % 4 = 1 → (d.formatOk who = true ↔ common ∧ port d.source ∧ memory d.dest))
    ∧ (d.control.toNat % 4 = 2 → (d.formatOk who = true ↔ common ∧ memory d.source ∧ port d.dest))
    ∧ (d.control.toNat % 4 = 3 → (d.formatOk who = true ↔ common ∧ memory d.dest))

/-- BEAT_READ_END with ready: the datum that the read's lanes carry is held, and the beat's write is issued with it: at the
destination's translation for COPY and INGEST, at the destination port for EMIT (R112, R171). -/
def Obligations.BeatReadIssuesTheWrite : Prop :=
  ∀ (s : State) (a : Access) (sd : Word), s.Carrying .engine a → s.engine.service = .move →
    s.engine.stage = .read →
    let e := s.element
    let datum : Word :=
      if a.width = .word then sd
      else if a.address.getLsbD 0 then (sd.extractLsb' 8 8).setWidth 16 else (sd.extractLsb' 0 8).setWidth 16
    let issued (x : Access) : Prop :=
      exec (.beatReadEnd (.ready sd)) s = .next { s with
        engine := { s.engine with datum := some datum, stage := .write }
        sbi := (s.sbi.ended.handOver .engine x).settle }
    (∀ p : PAddr, e.control.toNat % 4 ≠ 2 → s.engine.writeAt = some p →
      issued { space := .memory, width := widthOf e.control, address := p, write := some datum })
    ∧ (e.control.toNat % 4 = 2 →
      issued { space := .port, width := widthOf e.control, address := (e.dest.extractLsb' 0 8).setWidth 24,
               write := some datum })

/-- BEAT_WRITE_END with ready: remaining decreases by 1 and the memory sides move by the width, a port and a pattern stay.
For a channel the last beat ends the service in WRITEBACK with code COMPLETE, READY, or HALTED or IDLE by a pending flag; a
beat that fills the burst ends it READY in MOVE; outside NORMAL it ends so too; a paced element whose line is low waits for
it in WAIT_REQ; and a pending halt, or abort, stops the channel at the boundary. In every other case the next beat begins,
with one more beat made: the checks of its kind, each with its lookup or port, and then its first access, for a FILL with its
page cached the next write at once. U's next beat issues its access at its physical address or port without a check, the
Engine holding both sides' addresses for the write that follows, and U's last beat issues its status write (R62, R63, R75,
R76, R84, R95, R106, R108 to R114, R117, R118, R146, R147). The sampled lines as an operand kept in the pins (log entry 5),
and that a miss of a lookup waits for the step WALK_START (log entry 3), are the model's choice, and so is the address that a
port side of U holds (log entry 17). So is that the sample wakes no other channel in WAIT_REQ, whose wake is the row
LINE_ASSERTED (log entry 5). -/
def Obligations.BeatWriteMovesTheElement : Prop :=
  ∀ (s : State) (a : Access) (sd : Word) (preq : BitVec 8), s.Carrying .engine a → s.engine.service = .move →
    s.engine.stage = .write →
    (∀ c : ChannelId, s.engine.server = .channel c → 1 ≤ s.channels[c].remaining.toNat →
      let x := s.channels[c]
      let w : Long := if x.control.getLsbD 2 = true then 2 else 1
      let kind := x.control.toNat % 4
      let made := s.engine.beats + 1
      let y : Channel := { x with
        remaining := x.remaining - 1
        source := if kind = 0 ∨ kind = 2 then x.source + w else x.source
        dest := if kind = 2 then x.dest else x.dest + w }
      let lineLow : Prop := ∃ n : Fin 8, (kind = 1 ∨ kind = 2) ∧ x.line = some n ∧ preq.getLsbD n.val = false
      let endsWith (z : Channel) : Prop :=
        exec (.beatWriteEnd (.ready sd) preq) s = .next { s with
          pins := { s.pins with preq := preq }
          channels := s.channels.set c { z with pendingHalt := false, pendingAbort := false }
          engine := Engine.free, sbi := s.sbi.ended.settle }
      let goesOn : Prop :=
        x.remaining ≠ 1 ∧ s.NoPending c ∧ made ≠ x.burst ∧ s.urgent.mode = .normal ∧ ¬ lineLow
      let moved : State := { s with
        pins := { s.pins with preq := preq }, channels := s.channels.set c y, sbi := s.sbi.ended
        engine := { s.engine with beats := made, datum := none } }
      (x.remaining = 1 →
        (s.NoPending c → endsWith { y with phase := .writeback, code := .complete, state := .ready })
        ∧ (x.pendingHalt = true → x.pendingAbort = false →
            endsWith { y with phase := .writeback, code := .complete, state := .halted })
        ∧ (x.pendingAbort = true → endsWith { y with
            phase := .writeback, code := .complete, state := .idle, completion := .aborted, held := none }))
      ∧ (s.NoPending c → x.remaining ≠ 1 → (made = x.burst ∨ s.urgent.mode ≠ .normal) →
          endsWith { y with state := .ready })
      ∧ (s.NoPending c → x.remaining ≠ 1 → made ≠ x.burst → s.urgent.mode = .normal → lineLow →
          endsWith { y with state := .waitReq })
      ∧ (made ≠ 0 → x.remaining ≠ 1 → x.pendingHalt = true → x.pendingAbort = false →
          endsWith { y with state := .halted })
      ∧ (made ≠ 0 → x.remaining ≠ 1 → x.pendingAbort = true →
          endsWith { y with state := .idle, completion := .aborted, held := none })
      ∧ (goesOn → exec (.beatWriteEnd (.ready sd) preq) s = .next moved.beginBeat.settleBus
          ∧ BeatChecked (exec (.beatWriteEnd (.ready sd) preq) s) true
              { moved with engine := { moved.engine with stage := .check, readAt := none, writeAt := none } } c)
      ∧ ∀ k : Fin 4, goesOn → kind = 3 →
          let v : VAddr := y.dest.extractLsb' 0 22
          let e := s.cache[setOf (vpnOf v)][k]
          let pattern : Word :=
            if x.control.getLsbD 2 = true then x.source.extractLsb' 0 16 else (x.source.extractLsb' 0 8).setWidth 16
          hitWay s.cache[setOf (vpnOf v)] x.domain (vpnOf v) = some k → e.writable = true →
          (e.writtenKnown = true ∨ s.domains[x.domain].trackWritten = false) →
          exec (.beatWriteEnd (.ready sd) preq) s = .next { moved with
            cache := (s.touch (setOf (vpnOf v)) k).cache
            engine := { s.engine with
              beats := made, stage := .write, readAt := none, writeAt := some (e.frame ++ v.extractLsb' 0 11),
              datum := some pattern }
            sbi := (s.sbi.ended.handOver .engine
              { space := .memory, width := if x.control.getLsbD 2 = true then .word else .byte,
                address := e.frame ++ v.extractLsb' 0 11, write := some pattern }).settle })
    ∧ (s.engine.server = .urgent → 1 ≤ s.urgent.u.remaining.toNat →
      let u := s.urgent.u
      let w : Long := if u.control.getLsbD 2 = true then 2 else 1
      let kind := u.control.toNat % 4
      let y : UContext := { u with
        remaining := u.remaining - 1
        source := if kind = 0 ∨ kind = 2 then u.source + w else u.source
        dest := if kind = 2 then u.dest else u.dest + w }
      (u.remaining ≠ 1 → exec (.beatWriteEnd (.ready sd) preq) s = .next { s with
        pins := { s.pins with preq := preq }, urgent := { s.urgent with u := y }
        engine := urgentBeatEngine s.engine y.element
        sbi := (s.sbi.ended.handOver .engine (urgentBeatAccess y.element)).settle })
      ∧ (u.remaining = 1 → exec (.beatWriteEnd (.ready sd) preq) s = .next { s with
          pins := { s.pins with preq := preq }
          urgent := { s.urgent with u := { y with phase := .writeback, code := .complete } }
          engine := { Engine.free with service := .writeback, server := .urgent }
          sbi := (s.sbi.ended.handOver .engine
            { space := .memory, width := .byte, address := u.position.extractLsb' 0 24 + 1,
              write := some 1 }).settle }))

/-- STATUS_WRITE_END with ready: the channel advances. With END clear it is READY in FETCH at its next address, with END set
it is DONE with completion code COMPLETE; NOTIFY or END sets its done flag. A pending halt then stops a READY channel, and a
pending abort makes it IDLE with ABORTED. For U with END clear, HOLD stops the run in URGENT_HOLD and otherwise the next
fetch begins; at a next address that is no multiple of 16, or above FFFFF0H, it stops at once in URGENT_HOLD with DESC_FORMAT
(R60, R72, R73, R75, R76, R95, R149). -/
def Obligations.StatusWriteAdvances : Prop :=
  ∀ (s : State) (a : Access) (sd : Word), s.Carrying .engine a → s.engine.service = .writeback →
    (∀ c : ChannelId, s.engine.server = .channel c →
      let x := s.channels[c]
      ∃ t, exec (.statusWriteEnd (.ready sd)) s = .next t
        ∧ (x.control.getLsbD 3 = false →
            t.channels = s.channels.set c
              (Channel.afterService { x with phase := .fetch, descriptor := x.next } .ready))
        ∧ (x.control.getLsbD 3 = true →
            t.channels = s.channels.set c (Channel.afterService { x with completion := .complete } .done))
        ∧ (∀ n : ChannelId, t.doneFlag n =
            (s.doneFlag n || (n == c && (x.control.getLsbD 4 || x.control.getLsbD 3))))
        ∧ t = { s with
            channels := t.channels, engine := Engine.free, sbi := s.sbi.ended.settle
            window := { s.window with done := t.window.done } })
    ∧ (s.engine.server = .urgent → s.urgent.u.control.getLsbD 3 = false → s.urgent.u.control.getLsbD 5 = true →
      exec (.statusWriteEnd (.ready sd)) s = .next { s with
        engine := Engine.free, sbi := s.sbi.ended.settle
        urgent := { s.urgent with mode := .urgentHold, fault := .none }
        window := { s.window with urgentCause := true } })
    ∧ (s.engine.server = .urgent → s.urgent.u.control.getLsbD 3 = false → s.urgent.u.control.getLsbD 5 = false →
        ¬ (s.urgent.u.next.toNat % 16 = 0 ∧ s.urgent.u.next.toNat ≤ 0xFFFFF0) →
      exec (.statusWriteEnd (.ready sd)) s = .next { s with
        engine := Engine.free, sbi := s.sbi.ended.settle
        urgent := { s.urgent with
          mode := .urgentHold, fault := .descFormat
          u := { s.urgent.u with position := s.urgent.u.next, phase := .fetch } }
        window := { s.window with urgentCause := true } })
    ∧ (s.engine.server = .urgent → s.urgent.u.control.getLsbD 3 = false → s.urgent.u.control.getLsbD 5 = false →
        s.urgent.u.next.toNat % 16 = 0 → s.urgent.u.next.toNat ≤ 0xFFFFF0 →
      exec (.statusWriteEnd (.ready sd)) s = .next { s with
        engine := { Engine.free with service := .fetch, server := .urgent }
        sbi := (s.sbi.ended.handOver .engine (readWord (s.urgent.u.next.extractLsb' 0 24))).settle
        urgent := { s.urgent with u := { s.urgent.u with position := s.urgent.u.next, phase := .fetch } } })

/-- At U's END advance a set latch is cleared and reruns the list, which at a list base that is no multiple of 16 stops at
once in URGENT_HOLD with DESC_FORMAT; a clear latch with HOLD stops in URGENT_HOLD; a clear latch without HOLD begins the
restore at the save base (R60, R75, R145, R148, R149, R157). That the restore begins with the image buffer empty is the
model's choice (log entry 13). -/
def Obligations.UrgentChainEndDecides : Prop :=
  ∀ (s : State) (a : Access) (sd : Word), s.Carrying .engine a → s.Serving .urgent .writeback →
    s.urgent.u.control.getLsbD 3 = true →
    (∀ src, s.urgent.latch = some src → s.urgent.listBase.toNat % 16 = 0 →
      exec (.statusWriteEnd (.ready sd)) s = .next { s with
        engine := { Engine.free with service := .fetch, server := .urgent }
        sbi := (s.sbi.ended.handOver .engine (readWord s.urgent.listBase)).settle
        urgent := { s.urgent with
          latch := none, mode := .urgentRun, fault := .none
          u := { UContext.reset with position := s.urgent.listBase.setWidth 32 } } })
    ∧ (s.urgent.latch ≠ none → s.urgent.listBase.toNat % 16 ≠ 0 →
      exec (.statusWriteEnd (.ready sd)) s = .next { s with
        engine := Engine.free, sbi := s.sbi.ended.settle
        urgent := { s.urgent with
          latch := none, mode := .urgentHold, fault := .descFormat
          u := { UContext.reset with position := s.urgent.listBase.setWidth 32 } }
        window := { s.window with urgentCause := true } })
    ∧ (s.urgent.latch = none → s.urgent.u.control.getLsbD 5 = true →
      exec (.statusWriteEnd (.ready sd)) s = .next { s with
        engine := Engine.free, sbi := s.sbi.ended.settle
        urgent := { s.urgent with mode := .urgentHold, fault := .none }
        window := { s.window with urgentCause := true } })
    ∧ (s.urgent.latch = none → s.urgent.u.control.getLsbD 5 = false →
      exec (.statusWriteEnd (.ready sd)) s = .next { s with
        engine := Engine.free
        sbi := (s.sbi.ended.handOver .urgent (readWord s.urgent.saveBase)).settle
        urgent := { s.urgent with mode := .urgentRestore, image := [], readProgress := 0 } })

/-- A bus error on an access of a normal channel's action ends the service with a fault record of the side that failed; the
context stands but for the state, or a pending abort then makes the channel IDLE. The same error of U stops its run in
URGENT_HOLD with fault code BUS_ERROR and the URGENT cause (R64, R71, R96, R114 to R116, R123, R124, R149). That the lines
sampled with the end of a beat's write wake no channel in WAIT_REQ, whose wake is the row LINE_ASSERTED, is the model's
choice (log entry 5). -/
def Obligations.BusErrorsAreReported : Prop :=
  ∀ (s : State) (a : Access) (preq : BitVec 8) (i : Instr) (acc : FaultAccess) (addr : BitVec 22), s.Carrying .engine a →
    let e := s.element
    let kind := e.control.toNat % 4
    (i = .fetchReadEnd .busError ∧ s.engine.service = .fetch ∧ acc = .fetch
        ∧ addr = s.descriptorAddr.extractLsb' 0 22 + BitVec.ofNat 22 (2 * s.engine.fetched.length))
      ∨ (i = .beatReadEnd .busError ∧ s.engine.service = .move ∧ s.engine.stage = .read
        ∧ acc = (if kind = 1 then .portRead else .read)
        ∧ addr = (if kind = 1 then (e.source.extractLsb' 0 8).setWidth 22 else e.source.extractLsb' 0 22))
      ∨ (i = .beatWriteEnd .busError preq ∧ s.engine.service = .move ∧ s.engine.stage = .write
        ∧ acc = (if kind = 2 then .portWrite else .write)
        ∧ addr = (if kind = 2 then (e.dest.extractLsb' 0 8).setWidth 22 else e.dest.extractLsb' 0 22))
      ∨ (i = .statusWriteEnd .busError ∧ s.engine.service = .writeback ∧ acc = .writeback
        ∧ addr = s.descriptorAddr.extractLsb' 0 22 + 1) →
    (∀ c : ChannelId, s.engine.server = .channel c →
      ∃ t, exec i s = .next t ∧ Reported s t c (recordOf s c .busError acc addr)
        ∧ t = { s with
            pins := t.pins, queue := t.queue, channels := t.channels, engine := Engine.free, sbi := s.sbi.ended.settle })
    ∧ (s.engine.server = .urgent →
      ∃ t, exec i s = .next t
        ∧ t = { s with
            pins := t.pins, engine := Engine.free, sbi := s.sbi.ended.settle
            urgent := { s.urgent with mode := .urgentHold, fault := .busError }
            window := { s.window with urgentCause := true } })

/-! ### Urgent service -/

/-- URQ_REQUEST with an ARMED detector and URGENT_REQ make an urgent request of their source, which acts by the mode: NORMAL
becomes URGENT_ENTRY in DRAIN with that entry cause; in the urgent modes a clear latch is set with the source and a set one
stands; in LOCKED there is no effect. A waiting probe is declined and answered ABORTED; a waiting request of the Engine is
declined, and its channel's service ends READY without a fault; both where both wait. URQ_ARM arms the detector, and a
DISARMED one makes no request (R36, R58, R82, R95, R137, R138, R139). That a fall which makes no request is still seen is the
model's choice (log entry 6), and so are the tenure of an OWNER whose walk is declined (log entry 19), and the step
WALK_START for which a request waits with the walker IDLE, so that both can wait (log entry 3). -/
def Obligations.UrgentRequestsActByMode : Prop :=
  ∀ (hi : Byte) (s : State), s.Running →
    let low (u : Urgent) : State :=
      { s with pins := { s.pins with urqHigh := false }, urgent := { u with armed := false } }
    let entered (u : Urgent) (src : Source) : Urgent :=
      { u with mode := .urgentEntry, step := .drain, entryCause := some src }
    let urgentMode := s.urgent.mode ≠ .normal ∧ s.urgent.mode ≠ .locked
    let aborted (t : State) : State := { t with
      walker := { t.walker with probeWaiting := none }
      window := { t.window with
        busy := false, cmdCause := true, probe := { ProbeResult.reset with outcome := .aborted } } }
    let ended (c : ChannelId) (t : State) : State := { t with
      walker := { t.walker with engineWaiting := none }, engine := Engine.free, sbi := t.sbi.settle
      channels := t.channels.set c (t.channels[c].afterService .ready) }
    (s.urgent.armed = true → s.window.resetting = false →
      (s.urgent.mode = .normal → s.walker.engineWaiting = none → s.walker.probeWaiting = none →
        exec .urqRequest s = .next (low (entered s.urgent .line)))
      ∧ (∀ r, s.urgent.mode = .normal → s.walker.engineWaiting = none → s.walker.probeWaiting = some r →
        exec .urqRequest s = .next (aborted (low (entered s.urgent .line))))
      ∧ (∀ r c, s.urgent.mode = .normal → s.walker.engineWaiting = some r → s.engine.server = .channel c →
          s.engine.service ≠ .none →
        (s.walker.probeWaiting = none → exec .urqRequest s = .next (ended c (low (entered s.urgent .line))))
        ∧ ∀ q, s.walker.probeWaiting = some q →
          exec .urqRequest s = .next (aborted (ended c (low (entered s.urgent .line)))))
      ∧ (urgentMode → s.urgent.latch = none → exec .urqRequest s = .next (low { s.urgent with latch := some .line }))
      ∧ (urgentMode → s.urgent.latch ≠ none → exec .urqRequest s = .next (low s.urgent))
      ∧ (s.urgent.mode = .locked → exec .urqRequest s = .next (low s.urgent)))
    ∧ (s.urgent.armed = false → exec .urqRequest s = .next { s with pins := { s.pins with urqHigh := false } })
    ∧ exec .urqArm s = .next
        { s with pins := { s.pins with urqHigh := true }, urgent := { s.urgent with armed := true } }
    ∧ (s.TakesCommands →
      (s.urgent.mode = .normal → s.walker.engineWaiting = none → s.walker.probeWaiting = none →
        exec (.urgentReq hi) s = .next ({ s with urgent := entered s.urgent .command }.recorded 0x0D .ok))
      ∧ (∀ q, s.urgent.mode = .normal → s.walker.engineWaiting = none → s.walker.probeWaiting = some q →
        exec (.urgentReq hi) s = .next ((aborted { s with urgent := entered s.urgent .command }).recorded 0x0D .ok))
      ∧ (∀ r c, s.urgent.mode = .normal → s.walker.engineWaiting = some r → s.engine.server = .channel c →
          s.engine.service ≠ .none →
        (s.walker.probeWaiting = none →
          exec (.urgentReq hi) s = .next ((ended c { s with urgent := entered s.urgent .command }).recorded 0x0D .ok))
        ∧ ∀ q, s.walker.probeWaiting = some q → exec (.urgentReq hi) s =
          .next ((aborted (ended c { s with urgent := entered s.urgent .command })).recorded 0x0D .ok))
      ∧ (urgentMode → s.urgent.latch = none →
        exec (.urgentReq hi) s = .next ({ s with urgent := { s.urgent with latch := some .command } }.recorded 0x0D .ok))
      ∧ (urgentMode → s.urgent.latch ≠ none → exec (.urgentReq hi) s = .next (s.recorded 0x0D .ok))
      ∧ (s.urgent.mode = .locked → exec (.urgentReq hi) s = .next (s.recorded 0x0D .ok)))

/-- Law 7 is kept by every step. -/
def Obligations.LatchLawKept : Prop := ∀ s t : State, LatchLaw s → step s = .next t → LatchLaw t

/-- SAVE_BEGIN, once the drain has left the Engine free and the walker IDLE, makes the step SAVE and issues the write of the
first image word, the revision 0047H, at the save base. SAVE_WRITE_END with ready issues the next of the 144 words; after the
last it begins the run at the list base, which where that is no multiple of 16 stops at once in URGENT_HOLD with DESC_FORMAT
and no access; with bus error the part locks with the number of the failing word. The words are the header and the eight
records in the image's layout (R60, R75, R140, R142 to R145, R149). That the save's beginning is a step of its own is the
model's choice (log entry 3). -/
def Obligations.SaveWritesTheImage : Prop :=
  (∀ s : State, s.Running → s.window.resetting = false → s.urgent.mode = .urgentEntry → s.urgent.step = .drain →
    s.engine.service = .none → s.walker.state = .idle →
    exec .saveBegin s = .next { s with
      urgent := { s.urgent with step := .save, saveProgress := 0 }
      sbi := s.sbi.handOver .urgent (writeWord s.urgent.saveBase 0x0047#16) })
  ∧ (∀ (s : State) (a : Access) (sd : Word), s.Carrying .urgent a → s.urgent.mode = .urgentEntry →
    s.urgent.step = .save → s.imageWords.length = 144 ∧
    (s.urgent.saveProgress < 143 → ∀ h : s.urgent.saveProgress + 1 < s.imageWords.length,
      exec (.saveWriteEnd (.ready sd)) s = .next { s with
        urgent := { s.urgent with saveProgress := s.urgent.saveProgress + 1 }
        sbi := (s.sbi.ended.handOver .urgent
          (writeWord (s.urgent.saveBase + BitVec.ofNat 24 (2 * (s.urgent.saveProgress + 1)))
            s.imageWords[s.urgent.saveProgress + 1])).settle })
    ∧ (s.urgent.saveProgress = 143 → s.urgent.listBase.toNat % 16 = 0 →
      exec (.saveWriteEnd (.ready sd)) s = .next { s with
        engine := { Engine.free with service := .fetch, server := .urgent }
        sbi := (s.sbi.ended.handOver .engine (readWord s.urgent.listBase)).settle
        urgent := { s.urgent with
          saveProgress := 144, mode := .urgentRun, fault := .none
          u := { UContext.reset with position := s.urgent.listBase.setWidth 32 } } })
    ∧ (s.urgent.saveProgress = 143 → s.urgent.listBase.toNat % 16 ≠ 0 →
      exec (.saveWriteEnd (.ready sd)) s = .next { s with
        engine := Engine.free, sbi := s.sbi.ended.settle
        urgent := { s.urgent with
          saveProgress := 144, mode := .urgentHold, fault := .descFormat
          u := { UContext.reset with position := s.urgent.listBase.setWidth 32 } }
        window := { s.window with urgentCause := true } })
    ∧ exec (.saveWriteEnd .busError) s = .next { s with
        sbi := s.sbi.ended.settle
        urgent := { s.urgent with
          mode := .locked, latch := none
          lock := { kind := .saveBusError, place := BitVec.ofNat 8 s.urgent.saveProgress } }
        window := { s.window with lockCause := true } })
  ∧ ∀ s : State,
    let word (i : Nat) : Nat := (s.imageWords.getD i 0).toNat
    (word 0 = 0x0047
      ∧ word 1 = (match s.urgent.entryCause with | some .line => 1 | some .command => 2 | none => 0)
      ∧ word 2 = s.urgent.saveBase.toNat % 65536 ∧ word 3 = s.urgent.saveBase.toNat / 65536
      ∧ ∀ i : Nat, 4 ≤ i → i ≤ 15 → word i = 0)
    ∧ ∀ c : ChannelId,
      let x := s.channels[c]
      let o := 16 + 16 * c.val
      word o = (match x.state with
        | .idle => 0 | .ready => 1 | .waitReq => 2 | .active => 3 | .halted => 4 | .faulted => 5 | .faultWait => 6
        | .done => 7)
      ∧ word (o + 1) = x.domain.val + 256 * x.priority.val
          + 4096 * (match x.line with | some n => n.val | none => 15)
      ∧ word (o + 2) = x.burst.toNat ∧ word (o + 3) = x.control.toNat
      ∧ word (o + 4) = x.count.toNat ∧ word (o + 5) = x.remaining.toNat
      ∧ word (o + 6) = x.descriptor.toNat % 65536 ∧ word (o + 7) = x.descriptor.toNat / 65536
      ∧ word (o + 8) = x.source.toNat % 65536 ∧ word (o + 9) = x.source.toNat / 65536
      ∧ word (o + 10) = x.dest.toNat % 65536 ∧ word (o + 11) = x.dest.toNat / 65536
      ∧ word (o + 12) = x.next.toNat % 65536 ∧ word (o + 13) = x.next.toNat / 65536
      ∧ word (o + 14) = (match x.phase with | .fetch => 0 | .move => 1 | .writeback => 2)
          + 256 * (match x.code with | .complete => 1 | .skipped => 2)
      ∧ word (o + 15) = 0

/-- RESTORE_READ_END with ready keeps the word and issues the next read; with bus error the part locks with the number of the
failing word. After the 144th word the image is validated: the first failing check locks the part with its code and record
index and loads nothing; an image that passes is loaded, the save base takes the relocation slot, and the mode becomes
NORMAL, where each WAIT_REQ channel whose line is asserted becomes READY, or with the latch set URGENT_ENTRY with the latch's
source. The checks are said with the numbers of the image (R85, R157 to R161, R165). The sampled lines as an operand kept in
the pins are the model's choice (log entry 5). The image buffer as a list of the words read so far is the model's choice (log
entry 13). -/
def Obligations.RestoreReadsAndJudges : Prop :=
  (∀ (s : State) (a : Access) (sd : Word) (preq : BitVec 8), s.Carrying .urgent a → a.width = .word →
    s.urgent.mode = .urgentRestore →
    let full : State := { s with
      pins := { s.pins with preq := preq }, sbi := s.sbi.ended
      urgent := { s.urgent with image := s.urgent.image ++ [sd], readProgress := 144 } }
    (s.urgent.readProgress < 143 →
      exec (.restoreReadEnd (.ready sd) preq) s = .next { s with
        pins := { s.pins with preq := preq }
        urgent := { s.urgent with image := s.urgent.image ++ [sd], readProgress := s.urgent.readProgress + 1 }
        sbi := (s.sbi.ended.handOver .urgent
          (readWord (s.urgent.saveBase + BitVec.ofNat 24 (2 * (s.urgent.readProgress + 1))))).settle })
    ∧ exec (.restoreReadEnd .busError preq) s = .next { s with
        pins := { s.pins with preq := preq }, sbi := s.sbi.ended.settle
        urgent := { s.urgent with
          mode := .locked, latch := none
          lock := { kind := .restoreBusError, place := BitVec.ofNat 8 s.urgent.readProgress } }
        window := { s.window with lockCause := true } }
    ∧ (s.urgent.readProgress = 143 → ∀ k n, full.imageFault = some (k, n) →
      exec (.restoreReadEnd (.ready sd) preq) s = .next { full with
        sbi := s.sbi.ended.settle
        urgent := { full.urgent with mode := .locked, latch := none, lock := { kind := k, place := BitVec.ofNat 8 n } }
        window := { s.window with lockCause := true } })
    ∧ (s.urgent.readProgress = 143 → full.imageFault = none →
      let base : PAddr := (wordAt full.urgent.image 3).extractLsb' 0 8 ++ wordAt full.urgent.image 2
      let loaded := full.loadImage
      (∀ src, s.urgent.latch = some src →
        ∃ t, exec (.restoreReadEnd (.ready sd) preq) s = .next t
          ∧ t.urgent = { full.urgent with
              saveBase := base, mode := .urgentEntry, step := .drain, entryCause := some src, latch := none }
          ∧ t = { loaded with urgent := t.urgent, sbi := s.sbi.ended.settle })
      ∧ (s.urgent.latch = none →
        ∃ t, exec (.restoreReadEnd (.ready sd) preq) s = .next t
          ∧ t.urgent = { full.urgent with saveBase := base, mode := .normal }
          ∧ (∀ c : ChannelId, t.channels[c] =
              if s.window.resetting = false ∧ loaded.channels[c].state = .waitReq
                  ∧ ∃ n : Fin 8, loaded.channels[c].line = some n ∧ preq.getLsbD n.val = true then
                { loaded.channels[c] with state := .ready }
              else loaded.channels[c])
          ∧ (s.engine.service = .none → t.sbi = s.sbi.ended.settle)
          ∧ t = { loaded with urgent := t.urgent, channels := t.channels, sbi := t.sbi })))
  ∧ ∀ s : State,
    let byte (i : Nat) : Nat := (s.urgent.image.getD (i / 2) 0).toNat / 256 ^ (i % 2) % 256
    let word (i : Nat) : Nat := byte i + 256 * byte (i + 1)
    let long (i : Nat) : Nat := word i + 65536 * word (i + 2)
    let stateCode : ChannelState → Nat := fun
      | .idle => 0 | .ready => 1 | .waitReq => 2 | .active => 3 | .halted => 4 | .faulted => 5 | .faultWait => 6 | .done => 7
    let relocation : Prop := long 4 % 0x200 = 0 ∧ long 4 ≤ 0xFFFE00
    let context (c : ChannelId) : Prop :=
      let o := 32 + 32 * c.val
      let st := byte o
      let line := byte (o + 3) / 16
      let kind := byte (o + 6) % 4
      let w := if byte (o + 6) / 4 % 2 = 1 then 2 else 1
      let left := word (o + 10)
      let phase := byte (o + 28)
      let memory (a : Nat) : Prop := a % w = 0 ∧ a + left * w - 1 ≤ 0x3FFFFF
      let port (p : Nat) : Prop := p ≤ 0xFF ∧ p % w = 0
      byte (o + 2) ≤ 15
      ∧ (st ≠ 7 → ∀ d : DomainId, d.val = byte (o + 2) → s.domains[d].state = .opened)
      ∧ 1 ≤ word (o + 8) ∧ left ≤ word (o + 8)
      ∧ phase ≤ 2
      ∧ 1 ≤ word (o + 4) ∧ word (o + 4) ≤ 16
      ∧ (line ≤ 7 ∨ line = 15) ∧ (byte (o + 29) = 1 ∨ byte (o + 29) = 2)
      ∧ (st = 2 → phase = 1 ∧ line ≤ 7 ∧ (kind = 1 ∨ kind = 2))
      ∧ (phase = 1 → 1 ≤ left)
      ∧ (st = 7 → phase = 2)
      ∧ (phase = 1 ∨ phase = 2 → long (o + 12) % 16 = 0 ∧ long (o + 12) ≤ 0x3FFFF0)
      ∧ (phase = 1 → (kind ≠ 3 → (if kind = 1 then port (long (o + 16)) else memory (long (o + 16))))
          ∧ (if kind = 2 then port (long (o + 20)) else memory (long (o + 20))))
    let fails (c : ChannelId) (k : LockKind) : Prop :=
      let o := 32 + 32 * c.val
      let st := byte o
      let old := stateCode s.channels[c].state
      let coded : Prop := st ∈ [0, 1, 2, 4, 5, 6, 7]
      let reachable : Prop := st = old ∨ st = 0 ∨ (st = 4 ∧ (old = 1 ∨ old = 2))
      let disposed : Prop := byte (o + 1) ≤ 2
      let allowed : Prop := byte (o + 1) = 0 ∨ (st ≠ 0 ∧ st ≠ 7 ∧ st ≠ 6 ∧ byte (o + 28) ≠ 0)
      (k = .badStateCode ∧ ¬ coded)
      ∨ (k = .badTransition ∧ coded ∧ ¬ reachable)
      ∨ (k = .badDisposition ∧ coded ∧ reachable ∧ ¬ disposed)
      ∨ (k = .dispositionNotAllowed ∧ coded ∧ reachable ∧ disposed ∧ ¬ allowed)
      ∨ (k = .badContext ∧ coded ∧ reachable ∧ disposed ∧ allowed ∧ st ≠ 0 ∧ ¬ context c)
    (¬ relocation → s.imageFault = some (.badRelocation, 8))
    ∧ (relocation →
      (∀ c k, fails c k → (∀ c' : ChannelId, c' < c → ∀ k', ¬ fails c' k') → s.imageFault = some (k, c.val))
      ∧ ((∀ c k, ¬ fails c k) → s.imageFault = none))

/-- A record that passes its checks is loaded with its disposition. CONTINUE leaves the loaded state, which may be HALTED
over READY or WAIT_REQ, and which makes a channel loaded as IDLE over another state lose its held record and take completion
code ABORTED; a field of an IDLE record out of the context's range takes its reset value. REDO goes back to FETCH at the
descriptor; SKIP in MOVE goes to the writeback of SKIPPED, and in WRITEBACK advances, to the next descriptor, or to DONE with
COMPLETE where END is set; a FAULTED or WAIT_REQ channel so released is READY. What the image does not carry keeps its
on-chip value. The load takes each channel's record from its place in the image, and sets the done flag of a SKIP that
advances with NOTIFY or END (R143, R163, R164). The image buffer as a list of the words read so far is the model's choice
(log entry 13). -/
def Obligations.ImageRecordsLoad : Prop :=
  (∀ (x : Channel) (r : ImageRecord) (st : ChannelState) (d : DomainId) (l : Option (Fin 8)) (b : BitVec 5) (ph : Phase)
      (k : WritebackCode),
    r.state.toNat = (match st with
      | .idle => 0 | .ready => 1 | .waitReq => 2 | .active => 3 | .halted => 4 | .faulted => 5 | .faultWait => 6
      | .done => 7) → st ≠ .active →
    d.val = (if r.domain.toNat ≤ 15 then r.domain.toNat else 0) →
    (match l with | some n => n.val | none => 15) =
      (if r.priorityLine.toNat / 16 ≤ 7 ∨ r.priorityLine.toNat / 16 = 15 then r.priorityLine.toNat / 16 else 0) →
    b.toNat = (if r.burst.toNat ≤ 16 then r.burst.toNat else 0) →
    (match ph with | .fetch => 0 | .move => 1 | .writeback => 2) = (if r.phase.toNat ≤ 2 then r.phase.toNat else 0) →
    k = (if r.code.toNat = 2 then .skipped else .complete) →
    let y : Channel := { x with
      state := st, domain := d, priority := Fin.ofNat 4 (r.priorityLine.toNat % 4), line := l, burst := b
      control := r.control.extractLsb' 0 8, count := r.count, remaining := r.remaining, descriptor := r.descriptor
      source := r.source, dest := r.dest, next := r.next, phase := ph, code := k
      pendingHalt := false, pendingAbort := false
      held := if st = .idle ∧ x.state ≠ .idle then none else x.held
      completion := if st = .idle ∧ x.state ≠ .idle then .aborted else x.completion }
    let released : ChannelState := if st = .faulted ∨ st = .waitReq then .ready else st
    (r.disposition.toNat = 0 → x.loadRecord r = y)
    ∧ (r.disposition.toNat = 1 → x.loadRecord r = { y with phase := .fetch, state := released })
    ∧ (r.disposition.toNat = 2 → ph = .move →
        x.loadRecord r = { y with phase := .writeback, code := .skipped, state := released })
    ∧ (r.disposition.toNat = 2 → ph = .writeback → r.control.getLsbD 3 = false →
        x.loadRecord r = { y with phase := .fetch, descriptor := r.next, state := released })
    ∧ (r.disposition.toNat = 2 → ph = .writeback → r.control.getLsbD 3 = true →
        x.loadRecord r = { y with state := .done, completion := .complete }))
  ∧ ∀ s : State,
    let r (c : ChannelId) : ImageRecord := imageRecord s.urgent.image c
    let byte (i : Nat) : Nat := (s.urgent.image.getD (i / 2) 0).toNat / 256 ^ (i % 2) % 256
    let word (i : Nat) : Nat := byte i + 256 * byte (i + 1)
    let long (i : Nat) : Nat := word i + 65536 * word (i + 2)
    (∀ c : ChannelId,
      let o := 32 + 32 * c.val
      (r c).state.toNat = byte o ∧ (r c).disposition.toNat = byte (o + 1) ∧ (r c).domain.toNat = byte (o + 2)
      ∧ (r c).priorityLine.toNat = byte (o + 3) ∧ (r c).burst.toNat = word (o + 4)
      ∧ (r c).control.toNat = word (o + 6) ∧ (r c).count.toNat = word (o + 8) ∧ (r c).remaining.toNat = word (o + 10)
      ∧ (r c).descriptor.toNat = long (o + 12) ∧ (r c).source.toNat = long (o + 16)
      ∧ (r c).dest.toNat = long (o + 20) ∧ (r c).next.toNat = long (o + 24)
      ∧ (r c).phase.toNat = byte (o + 28) ∧ (r c).code.toNat = byte (o + 29))
    ∧ (∀ c : ChannelId, s.loadImage.channels[c] = s.channels[c].loadRecord (r c)
      ∧ s.loadImage.doneFlag c = (s.doneFlag c
          || decide ((r c).disposition.toNat = 2 ∧ (r c).phase.toNat = 2
            ∧ ((r c).control.getLsbD 3 = true ∨ (r c).control.getLsbD 4 = true))))
    ∧ s.loadImage = { s with
        channels := s.loadImage.channels, window := { s.window with done := s.loadImage.window.done } }

/-- An image that nobody has edited passes validation, whatever the on-chip contexts that the save can write, and its load
leaves every channel and every done flag as they were (R161, R163). The image buffer as a list of the words read so far is
the model's choice (log entry 13). -/
def Obligations.UneditedImageRestoresItself : Prop :=
  ∀ s : State, (∀ c : ChannelId, Restorable s c) → s.urgent.saveBase.toNat % 0x200 = 0 →
    s.urgent.image = s.imageWords →
    s.imageFault = none ∧ s.loadImage.channels = s.channels ∧ s.loadImage.window.done = s.window.done

/-- RESUME in URGENT_HOLD with the latch set clears it and reruns the list from its base, which at a base that is no multiple
of 16 stops at once in URGENT_HOLD with DESC_FORMAT; with the latch clear it begins the restore. In any other mode it is
refused with BAD_STATE (R60, R75, R145, R149, R152, R157). That the restore begins with the image buffer empty is the model's
choice (log entry 13). -/
def Obligations.ResumeRerunsOrRestores : Prop :=
  ∀ (hi : Byte) (s : State), s.TakesCommands →
    (∀ src, s.urgent.mode = .urgentHold → s.urgent.latch = some src → s.urgent.listBase.toNat % 16 = 0 →
      exec (.resume hi) s = .next ({ s with
        engine := { Engine.free with service := .fetch, server := .urgent }
        sbi := s.sbi.handOver .engine (readWord s.urgent.listBase)
        urgent := { s.urgent with
          latch := none, mode := .urgentRun, fault := .none
          u := { UContext.reset with position := s.urgent.listBase.setWidth 32 } } }.recorded 0x0E .ok))
    ∧ (s.urgent.mode = .urgentHold → s.urgent.latch ≠ none → s.urgent.listBase.toNat % 16 ≠ 0 →
      exec (.resume hi) s = .next ({ s with
        engine := Engine.free
        urgent := { s.urgent with
          latch := none, mode := .urgentHold, fault := .descFormat
          u := { UContext.reset with position := s.urgent.listBase.setWidth 32 } }
        window := { s.window with urgentCause := true } }.recorded 0x0E .ok))
    ∧ (s.urgent.mode = .urgentHold → s.urgent.latch = none →
      exec (.resume hi) s = .next ({ s with
        engine := Engine.free
        sbi := s.sbi.handOver .urgent (readWord s.urgent.saveBase)
        urgent := { s.urgent with mode := .urgentRestore, image := [], readProgress := 0 } }.recorded 0x0E .ok))
    ∧ (s.urgent.mode ≠ .urgentHold → exec (.resume hi) s = .next (s.recorded 0x0E .badState))

/-- LOCK_CLEAR in LOCKED makes every channel IDLE with completion code CLEARED, discards the held records, clears the pending
flags and makes the mode NORMAL; everything else stands. In any other mode it is refused with BAD_STATE (R167). -/
def Obligations.LockClearSweepsChannels : Prop :=
  ∀ (hi : Byte) (s : State), s.TakesCommands →
    (s.urgent.mode = .locked → ∃ t, exec (.lockClear hi) s = .next t
      ∧ (∀ c : ChannelId, t.channels[c] = { s.channels[c] with
          state := .idle, completion := .cleared, held := none, pendingHalt := false, pendingAbort := false })
      ∧ t = { s.recorded 0x0F .ok with channels := t.channels, urgent := { s.urgent with mode := .normal } })
    ∧ (s.urgent.mode ≠ .locked → exec (.lockClear hi) s = .next (s.recorded 0x0F .badState))

/-- The base writes in NORMAL: USBL and ULBL replace the stagings; USBH applies an address that is a multiple of 200H and at
most FFFE00H, and is otherwise refused with TABLE_LOCKED; ULBH applies any address. In every other mode all four are ignored
with TABLE_LOCKED set (R153, R154). -/
def Obligations.BaseWritesApplyInNormal : Prop :=
  ∀ (v : Word) (s : State), s.Running →
    let locked : State := { s with window := { s.window with tableLocked := true } }
    (s.urgent.mode = .normal →
      exec (.saveBaseLowWrite v) s = .next { s with urgent := { s.urgent with saveStaging := v } }
      ∧ exec (.listBaseLowWrite v) s = .next { s with urgent := { s.urgent with listStaging := v } }
      ∧ exec (.listBaseHighWrite v) s = .next
          { s with urgent := { s.urgent with listBase := v.extractLsb' 0 8 ++ s.urgent.listStaging } }
      ∧ (v.toNat < 256 → s.urgent.saveStaging.toNat % 0x200 = 0 → ∃ t, exec (.saveBaseHighWrite v) s = .next t
          ∧ t.urgent.saveBase.toNat = v.toNat * 65536 + s.urgent.saveStaging.toNat
          ∧ t = { s with urgent := { s.urgent with saveBase := t.urgent.saveBase } })
      ∧ (256 ≤ v.toNat ∨ s.urgent.saveStaging.toNat % 0x200 ≠ 0 → exec (.saveBaseHighWrite v) s = .next locked))
    ∧ (s.urgent.mode ≠ .normal →
      exec (.saveBaseLowWrite v) s = .next locked ∧ exec (.saveBaseHighWrite v) s = .next locked
      ∧ exec (.listBaseLowWrite v) s = .next locked ∧ exec (.listBaseHighWrite v) s = .next locked)

/-! ### The system bus -/

/-- BUS_GRANT in REQUESTING makes the SBI OWNER, and it begins one pending access, WALKER before ENGINE before URGENT, which
leaves its slot. BUS_GRANT_DEASSERTED lets an access in flight go on, ends the tenure of an OWNER without one, and takes
RELEASING to IDLE, or to REQUESTING where an access is pending. At the end of an access an OWNER with its grant begins the
next pending access, or without its grant becomes REQUESTING; with none pending it becomes RELEASING, unless its grant stands
and the Engine's service waits for a walk that is to start, for which it stays OWNER. So the words of a restore follow one
another in one tenure. An access in flight of an OWNER drives its address on SA23..SA0, SMIO/ high for memory, and SRD/ or
SWR/; a word both byte enables and both lanes, low byte on SD7..SD0; a byte at an even address SBE0/ and SD7..SD0, at an odd
one SBE1/ and SD15..SD8; a read drives no lane. SERR/ ends it with bus error whether or not SRDY/ is asserted, SRDY/ alone
ends it with ready and its lanes' data, and with neither it goes on (R170 to R173). That each event is a sample, that a
withdrawn grant is remembered until the access ends, and that an OWNER waits for no other event's access are the model's
choice (log entries 7, 8 and 19). -/
def Obligations.BusTenureFollowsGrant : Prop :=
  (∀ s : State, s.Running →
    (s.sbi.tenure = .requesting → s.sbi.inFlight = none →
      (∀ a, s.sbi.walker = some a → exec .busGrant s = .next { s with
        sbi := { s.sbi with tenure := .owner, granted := true, inFlight := some (.walker, a), walker := none } })
      ∧ (∀ a, s.sbi.walker = none → s.sbi.engine = some a → exec .busGrant s = .next { s with
        sbi := { s.sbi with tenure := .owner, granted := true, inFlight := some (.engine, a), engine := none } })
      ∧ (∀ a, s.sbi.walker = none → s.sbi.engine = none → s.sbi.urgent = some a → exec .busGrant s = .next { s with
        sbi := { s.sbi with tenure := .owner, granted := true, inFlight := some (.urgent, a), urgent := none } }))
    ∧ (s.sbi.tenure ≠ .requesting → exec .busGrant s = .next s)
    ∧ (s.sbi.tenure = .owner → (∃ x, s.sbi.inFlight = some x) →
        exec .busGrantDeasserted s = .next { s with sbi := { s.sbi with granted := false } })
    ∧ (s.sbi.tenure = .owner → s.sbi.inFlight = none → exec .busGrantDeasserted s = .next { s with
        sbi := { s.sbi with granted := false, tenure := if s.sbi.anyPending = true then .requesting else .releasing } })
    ∧ (s.sbi.tenure = .releasing → exec .busGrantDeasserted s = .next { s with
        sbi := { s.sbi with tenure := if s.sbi.anyPending = true then .requesting else .idle } })
    ∧ (s.sbi.tenure = .idle ∨ s.sbi.tenure = .requesting → exec .busGrantDeasserted s = .next s)
    ∧ (s.busRequested = true ↔ s.sbi.tenure = .requesting ∨ s.sbi.tenure = .owner)
    ∧ (s.busOutputs ≠ none ↔ s.sbi.tenure = .owner ∧ s.sbi.inFlight ≠ none)
    ∧ ∀ (r : Slot) (a : Access), s.sbi.tenure = .owner → s.sbi.inFlight = some (r, a) →
      let low : Option Byte := a.write.map (fun v => v.extractLsb' 0 8)
      let high : Option Byte := a.write.map (fun v => v.extractLsb' 8 8)
      let driven (sbe0 sbe1 : Bool) (lane0 lane1 : Option Byte) : Prop :=
        s.busOutputs = some
          { sa := a.address, memory := decide (a.space = .memory), sbe0 := sbe0, sbe1 := sbe1,
            read := decide (a.write = none), low := lane0, high := lane1 }
      (a.width = .word → driven true true low high)
      ∧ (a.width = .byte → a.address.toNat % 2 = 0 → driven true false low none)
      ∧ (a.width = .byte → a.address.toNat % 2 = 1 → driven false true none low))
  ∧ (∀ b : Sbi,
    (b.anyPending = true ↔ b.walker ≠ none ∨ b.engine ≠ none ∨ b.urgent ≠ none)
    ∧ (b.tenure ≠ .owner ∨ b.inFlight ≠ none → b.settle = b)
    ∧ (b.tenure = .owner → b.inFlight = none →
      (b.anyPending = false → b.settle = { b with tenure := .releasing, granted := false })
      ∧ (b.anyPending = true → b.granted = false → b.settle = { b with tenure := .requesting })
      ∧ (∀ a, b.granted = true → b.walker = some a → b.settle = { b with inFlight := some (.walker, a), walker := none })
      ∧ (∀ a, b.granted = true → b.walker = none → b.engine = some a →
          b.settle = { b with inFlight := some (.engine, a), engine := none })
      ∧ (∀ a, b.granted = true → b.walker = none → b.engine = none → b.urgent = some a →
          b.settle = { b with inFlight := some (.urgent, a), urgent := none })))
  ∧ (∀ t : State,
    t.settleBus =
      if t.engine.service ≠ .none ∧ t.walker.engineWaiting ≠ none ∧ t.walker.state = .idle ∧ t.urgent.mode = .normal
          ∧ t.window.resetting = false ∧ t.sbi.granted = true ∧ t.sbi.anyPending = false then t
      else { t with sbi := t.sbi.settle })
  ∧ (∀ (srdy serr : Bool) (sd : Word),
    (serr = true → busEndOf srdy serr sd = some .busError)
    ∧ (serr = false → srdy = true → busEndOf srdy serr sd = some (.ready sd))
    ∧ (serr = false → srdy = false → busEndOf srdy serr sd = none))
  ∧ ∀ (s : State) (a : Access) (sd : Word) (preq : BitVec 8), s.Carrying .urgent a → a.width = .word →
    s.urgent.mode = .urgentRestore → s.urgent.readProgress < 143 → s.sbi.tenure = .owner →
    s.sbi.walker = none → s.sbi.engine = none →
    let x := readWord (s.urgent.saveBase + BitVec.ofNat 24 (2 * (s.urgent.readProgress + 1)))
    ∃ t, exec (.restoreReadEnd (.ready sd) preq) s = .next t
      ∧ t.sbi = (if s.sbi.granted = true then { s.sbi with inFlight := some (.urgent, x), urgent := none }
        else { s.sbi with tenure := .requesting, inFlight := none, urgent := some x })

/-! ### What reset leaves -/

/-- The part after reset meets the laws. -/
def Obligations.ResetMeetsTheLaws : Prop :=
  MarksLaw State.reset ∧ TagsLaw State.reset ∧ QueueLaw State.reset ∧ LatchLaw State.reset ∧ ServiceLaw State.reset
  ∧ CountsLaw State.reset ∧ ConfinementLaw State.reset
end

