-- ==== Sys2Proof/Laws/State.lean ====
section
/-! SUPPORT. One lemma per field per update of State, each true by rfl once the update is unfolded. -/

namespace Sys2Proof.Machine.State

@[simp] theorem setChannel_domains (s : State) (c : ChannelId) (x : Channel) :
    (s.setChannel c x).domains = s.domains := rfl
@[simp] theorem setChannel_grants (s : State) (c : ChannelId) (x : Channel) :
    (s.setChannel c x).grants = s.grants := rfl
@[simp] theorem setChannel_cache (s : State) (c : ChannelId) (x : Channel) : (s.setChannel c x).cache = s.cache := rfl
@[simp] theorem setChannel_walker (s : State) (c : ChannelId) (x : Channel) :
    (s.setChannel c x).walker = s.walker := rfl
@[simp] theorem setChannel_channels (s : State) (c : ChannelId) (x : Channel) :
    (s.setChannel c x).channels = s.channels.set c x := rfl
@[simp] theorem setChannel_pointers (s : State) (c : ChannelId) (x : Channel) :
    (s.setChannel c x).pointers = s.pointers := rfl
@[simp] theorem setChannel_engine (s : State) (c : ChannelId) (x : Channel) :
    (s.setChannel c x).engine = s.engine := rfl
@[simp] theorem setChannel_queue (s : State) (c : ChannelId) (x : Channel) : (s.setChannel c x).queue = s.queue := rfl
@[simp] theorem setChannel_urgent (s : State) (c : ChannelId) (x : Channel) :
    (s.setChannel c x).urgent = s.urgent := rfl
@[simp] theorem setChannel_sbi (s : State) (c : ChannelId) (x : Channel) : (s.setChannel c x).sbi = s.sbi := rfl
@[simp] theorem setChannel_window (s : State) (c : ChannelId) (x : Channel) :
    (s.setChannel c x).window = s.window := rfl
@[simp] theorem setChannel_pins (s : State) (c : ChannelId) (x : Channel) : (s.setChannel c x).pins = s.pins := rfl
@[simp] theorem setChannel_pending (s : State) (c : ChannelId) (x : Channel) :
    (s.setChannel c x).pending = s.pending := rfl

@[simp] theorem setDomain_domains (s : State) (d : DomainId) (r : DomainRecord) :
    (s.setDomain d r).domains = s.domains.set d r := rfl
@[simp] theorem setDomain_grants (s : State) (d : DomainId) (r : DomainRecord) :
    (s.setDomain d r).grants = s.grants := rfl
@[simp] theorem setDomain_cache (s : State) (d : DomainId) (r : DomainRecord) : (s.setDomain d r).cache = s.cache := rfl
@[simp] theorem setDomain_walker (s : State) (d : DomainId) (r : DomainRecord) :
    (s.setDomain d r).walker = s.walker := rfl
@[simp] theorem setDomain_channels (s : State) (d : DomainId) (r : DomainRecord) :
    (s.setDomain d r).channels = s.channels := rfl
@[simp] theorem setDomain_pointers (s : State) (d : DomainId) (r : DomainRecord) :
    (s.setDomain d r).pointers = s.pointers := rfl
@[simp] theorem setDomain_engine (s : State) (d : DomainId) (r : DomainRecord) :
    (s.setDomain d r).engine = s.engine := rfl
@[simp] theorem setDomain_queue (s : State) (d : DomainId) (r : DomainRecord) : (s.setDomain d r).queue = s.queue := rfl
@[simp] theorem setDomain_urgent (s : State) (d : DomainId) (r : DomainRecord) :
    (s.setDomain d r).urgent = s.urgent := rfl
@[simp] theorem setDomain_sbi (s : State) (d : DomainId) (r : DomainRecord) : (s.setDomain d r).sbi = s.sbi := rfl
@[simp] theorem setDomain_window (s : State) (d : DomainId) (r : DomainRecord) :
    (s.setDomain d r).window = s.window := rfl
@[simp] theorem setDomain_pins (s : State) (d : DomainId) (r : DomainRecord) : (s.setDomain d r).pins = s.pins := rfl
@[simp] theorem setDomain_pending (s : State) (d : DomainId) (r : DomainRecord) :
    (s.setDomain d r).pending = s.pending := rfl

@[simp] theorem setCacheSet_domains (s : State) (i : Fin 16) (x : CacheSet) :
    (s.setCacheSet i x).domains = s.domains := rfl
@[simp] theorem setCacheSet_grants (s : State) (i : Fin 16) (x : CacheSet) :
    (s.setCacheSet i x).grants = s.grants := rfl
@[simp] theorem setCacheSet_cache (s : State) (i : Fin 16) (x : CacheSet) :
    (s.setCacheSet i x).cache = s.cache.set i x := rfl
@[simp] theorem setCacheSet_walker (s : State) (i : Fin 16) (x : CacheSet) :
    (s.setCacheSet i x).walker = s.walker := rfl
@[simp] theorem setCacheSet_channels (s : State) (i : Fin 16) (x : CacheSet) :
    (s.setCacheSet i x).channels = s.channels := rfl
@[simp] theorem setCacheSet_pointers (s : State) (i : Fin 16) (x : CacheSet) :
    (s.setCacheSet i x).pointers = s.pointers := rfl
@[simp] theorem setCacheSet_engine (s : State) (i : Fin 16) (x : CacheSet) :
    (s.setCacheSet i x).engine = s.engine := rfl
@[simp] theorem setCacheSet_queue (s : State) (i : Fin 16) (x : CacheSet) : (s.setCacheSet i x).queue = s.queue := rfl
@[simp] theorem setCacheSet_urgent (s : State) (i : Fin 16) (x : CacheSet) :
    (s.setCacheSet i x).urgent = s.urgent := rfl
@[simp] theorem setCacheSet_sbi (s : State) (i : Fin 16) (x : CacheSet) : (s.setCacheSet i x).sbi = s.sbi := rfl
@[simp] theorem setCacheSet_window (s : State) (i : Fin 16) (x : CacheSet) :
    (s.setCacheSet i x).window = s.window := rfl
@[simp] theorem setCacheSet_pins (s : State) (i : Fin 16) (x : CacheSet) : (s.setCacheSet i x).pins = s.pins := rfl
@[simp] theorem setCacheSet_pending (s : State) (i : Fin 16) (x : CacheSet) :
    (s.setCacheSet i x).pending = s.pending := rfl

@[simp] theorem touch_domains (s : State) (i : Fin 16) (w : Fin 4) : (s.touch i w).domains = s.domains := rfl
@[simp] theorem touch_grants (s : State) (i : Fin 16) (w : Fin 4) : (s.touch i w).grants = s.grants := rfl
@[simp] theorem touch_cache (s : State) (i : Fin 16) (w : Fin 4) :
    (s.touch i w).cache = s.cache.set i (markReferenced s.cache[i] w) := rfl
@[simp] theorem touch_walker (s : State) (i : Fin 16) (w : Fin 4) : (s.touch i w).walker = s.walker := rfl
@[simp] theorem touch_channels (s : State) (i : Fin 16) (w : Fin 4) : (s.touch i w).channels = s.channels := rfl
@[simp] theorem touch_pointers (s : State) (i : Fin 16) (w : Fin 4) : (s.touch i w).pointers = s.pointers := rfl
@[simp] theorem touch_engine (s : State) (i : Fin 16) (w : Fin 4) : (s.touch i w).engine = s.engine := rfl
@[simp] theorem touch_queue (s : State) (i : Fin 16) (w : Fin 4) : (s.touch i w).queue = s.queue := rfl
@[simp] theorem touch_urgent (s : State) (i : Fin 16) (w : Fin 4) : (s.touch i w).urgent = s.urgent := rfl
@[simp] theorem touch_sbi (s : State) (i : Fin 16) (w : Fin 4) : (s.touch i w).sbi = s.sbi := rfl
@[simp] theorem touch_window (s : State) (i : Fin 16) (w : Fin 4) : (s.touch i w).window = s.window := rfl
@[simp] theorem touch_pins (s : State) (i : Fin 16) (w : Fin 4) : (s.touch i w).pins = s.pins := rfl
@[simp] theorem touch_pending (s : State) (i : Fin 16) (w : Fin 4) : (s.touch i w).pending = s.pending := rfl

@[simp] theorem install_domains (s : State) (x : Translation) : (s.install x).domains = s.domains := rfl
@[simp] theorem install_grants (s : State) (x : Translation) : (s.install x).grants = s.grants := rfl
@[simp] theorem install_cache (s : State) (x : Translation) :
    (s.install x).cache = s.cache.set (setOf x.vpn) (installInto s.cache[setOf x.vpn] x) := rfl
@[simp] theorem install_walker (s : State) (x : Translation) : (s.install x).walker = s.walker := rfl
@[simp] theorem install_channels (s : State) (x : Translation) : (s.install x).channels = s.channels := rfl
@[simp] theorem install_pointers (s : State) (x : Translation) : (s.install x).pointers = s.pointers := rfl
@[simp] theorem install_engine (s : State) (x : Translation) : (s.install x).engine = s.engine := rfl
@[simp] theorem install_queue (s : State) (x : Translation) : (s.install x).queue = s.queue := rfl
@[simp] theorem install_urgent (s : State) (x : Translation) : (s.install x).urgent = s.urgent := rfl
@[simp] theorem install_sbi (s : State) (x : Translation) : (s.install x).sbi = s.sbi := rfl
@[simp] theorem install_window (s : State) (x : Translation) : (s.install x).window = s.window := rfl
@[simp] theorem install_pins (s : State) (x : Translation) : (s.install x).pins = s.pins := rfl
@[simp] theorem install_pending (s : State) (x : Translation) : (s.install x).pending = s.pending := rfl

@[simp] theorem modU_domains (s : State) (f : UContext → UContext) : (s.modU f).domains = s.domains := rfl
@[simp] theorem modU_grants (s : State) (f : UContext → UContext) : (s.modU f).grants = s.grants := rfl
@[simp] theorem modU_cache (s : State) (f : UContext → UContext) : (s.modU f).cache = s.cache := rfl
@[simp] theorem modU_walker (s : State) (f : UContext → UContext) : (s.modU f).walker = s.walker := rfl
@[simp] theorem modU_channels (s : State) (f : UContext → UContext) : (s.modU f).channels = s.channels := rfl
@[simp] theorem modU_pointers (s : State) (f : UContext → UContext) : (s.modU f).pointers = s.pointers := rfl
@[simp] theorem modU_engine (s : State) (f : UContext → UContext) : (s.modU f).engine = s.engine := rfl
@[simp] theorem modU_queue (s : State) (f : UContext → UContext) : (s.modU f).queue = s.queue := rfl
@[simp] theorem modU_urgent (s : State) (f : UContext → UContext) :
    (s.modU f).urgent = { s.urgent with u := f s.urgent.u } := rfl
@[simp] theorem modU_sbi (s : State) (f : UContext → UContext) : (s.modU f).sbi = s.sbi := rfl
@[simp] theorem modU_window (s : State) (f : UContext → UContext) : (s.modU f).window = s.window := rfl
@[simp] theorem modU_pins (s : State) (f : UContext → UContext) : (s.modU f).pins = s.pins := rfl
@[simp] theorem modU_pending (s : State) (f : UContext → UContext) : (s.modU f).pending = s.pending := rfl

@[simp] theorem modEngine_domains (s : State) (f : Engine → Engine) : (s.modEngine f).domains = s.domains := rfl
@[simp] theorem modEngine_grants (s : State) (f : Engine → Engine) : (s.modEngine f).grants = s.grants := rfl
@[simp] theorem modEngine_cache (s : State) (f : Engine → Engine) : (s.modEngine f).cache = s.cache := rfl
@[simp] theorem modEngine_walker (s : State) (f : Engine → Engine) : (s.modEngine f).walker = s.walker := rfl
@[simp] theorem modEngine_channels (s : State) (f : Engine → Engine) : (s.modEngine f).channels = s.channels := rfl
@[simp] theorem modEngine_pointers (s : State) (f : Engine → Engine) : (s.modEngine f).pointers = s.pointers := rfl
@[simp] theorem modEngine_engine (s : State) (f : Engine → Engine) : (s.modEngine f).engine = f s.engine := rfl
@[simp] theorem modEngine_queue (s : State) (f : Engine → Engine) : (s.modEngine f).queue = s.queue := rfl
@[simp] theorem modEngine_urgent (s : State) (f : Engine → Engine) : (s.modEngine f).urgent = s.urgent := rfl
@[simp] theorem modEngine_sbi (s : State) (f : Engine → Engine) : (s.modEngine f).sbi = s.sbi := rfl
@[simp] theorem modEngine_window (s : State) (f : Engine → Engine) : (s.modEngine f).window = s.window := rfl
@[simp] theorem modEngine_pins (s : State) (f : Engine → Engine) : (s.modEngine f).pins = s.pins := rfl
@[simp] theorem modEngine_pending (s : State) (f : Engine → Engine) : (s.modEngine f).pending = s.pending := rfl

@[simp] theorem modWalker_domains (s : State) (f : Walker → Walker) : (s.modWalker f).domains = s.domains := rfl
@[simp] theorem modWalker_grants (s : State) (f : Walker → Walker) : (s.modWalker f).grants = s.grants := rfl
@[simp] theorem modWalker_cache (s : State) (f : Walker → Walker) : (s.modWalker f).cache = s.cache := rfl
@[simp] theorem modWalker_walker (s : State) (f : Walker → Walker) : (s.modWalker f).walker = f s.walker := rfl
@[simp] theorem modWalker_channels (s : State) (f : Walker → Walker) : (s.modWalker f).channels = s.channels := rfl
@[simp] theorem modWalker_pointers (s : State) (f : Walker → Walker) : (s.modWalker f).pointers = s.pointers := rfl
@[simp] theorem modWalker_engine (s : State) (f : Walker → Walker) : (s.modWalker f).engine = s.engine := rfl
@[simp] theorem modWalker_queue (s : State) (f : Walker → Walker) : (s.modWalker f).queue = s.queue := rfl
@[simp] theorem modWalker_urgent (s : State) (f : Walker → Walker) : (s.modWalker f).urgent = s.urgent := rfl
@[simp] theorem modWalker_sbi (s : State) (f : Walker → Walker) : (s.modWalker f).sbi = s.sbi := rfl
@[simp] theorem modWalker_window (s : State) (f : Walker → Walker) : (s.modWalker f).window = s.window := rfl
@[simp] theorem modWalker_pins (s : State) (f : Walker → Walker) : (s.modWalker f).pins = s.pins := rfl
@[simp] theorem modWalker_pending (s : State) (f : Walker → Walker) : (s.modWalker f).pending = s.pending := rfl

@[simp] theorem freeEngine_domains (s : State) : (s.freeEngine).domains = s.domains := rfl
@[simp] theorem freeEngine_grants (s : State) : (s.freeEngine).grants = s.grants := rfl
@[simp] theorem freeEngine_cache (s : State) : (s.freeEngine).cache = s.cache := rfl
@[simp] theorem freeEngine_walker (s : State) : (s.freeEngine).walker = s.walker := rfl
@[simp] theorem freeEngine_channels (s : State) : (s.freeEngine).channels = s.channels := rfl
@[simp] theorem freeEngine_pointers (s : State) : (s.freeEngine).pointers = s.pointers := rfl
@[simp] theorem freeEngine_engine (s : State) : (s.freeEngine).engine = Engine.free := rfl
@[simp] theorem freeEngine_queue (s : State) : (s.freeEngine).queue = s.queue := rfl
@[simp] theorem freeEngine_urgent (s : State) : (s.freeEngine).urgent = s.urgent := rfl
@[simp] theorem freeEngine_sbi (s : State) : (s.freeEngine).sbi = s.sbi := rfl
@[simp] theorem freeEngine_window (s : State) : (s.freeEngine).window = s.window := rfl
@[simp] theorem freeEngine_pins (s : State) : (s.freeEngine).pins = s.pins := rfl
@[simp] theorem freeEngine_pending (s : State) : (s.freeEngine).pending = s.pending := rfl

@[simp] theorem startService_domains (s : State) (w : Server) (v : Service) :
    (s.startService w v).domains = s.domains := rfl
@[simp] theorem startService_grants (s : State) (w : Server) (v : Service) :
    (s.startService w v).grants = s.grants := rfl
@[simp] theorem startService_cache (s : State) (w : Server) (v : Service) : (s.startService w v).cache = s.cache := rfl
@[simp] theorem startService_walker (s : State) (w : Server) (v : Service) :
    (s.startService w v).walker = s.walker := rfl
@[simp] theorem startService_channels (s : State) (w : Server) (v : Service) :
    (s.startService w v).channels = s.channels := rfl
@[simp] theorem startService_pointers (s : State) (w : Server) (v : Service) :
    (s.startService w v).pointers = s.pointers := rfl
@[simp] theorem startService_engine (s : State) (w : Server) (v : Service) :
    (s.startService w v).engine = { Engine.free with service := v, server := w } := rfl
@[simp] theorem startService_queue (s : State) (w : Server) (v : Service) : (s.startService w v).queue = s.queue := rfl
@[simp] theorem startService_urgent (s : State) (w : Server) (v : Service) :
    (s.startService w v).urgent = s.urgent := rfl
@[simp] theorem startService_sbi (s : State) (w : Server) (v : Service) : (s.startService w v).sbi = s.sbi := rfl
@[simp] theorem startService_window (s : State) (w : Server) (v : Service) :
    (s.startService w v).window = s.window := rfl
@[simp] theorem startService_pins (s : State) (w : Server) (v : Service) : (s.startService w v).pins = s.pins := rfl
@[simp] theorem startService_pending (s : State) (w : Server) (v : Service) :
    (s.startService w v).pending = s.pending := rfl

@[simp] theorem handOver_domains (s : State) (r : Slot) (a : Access) : (s.handOver r a).domains = s.domains := rfl
@[simp] theorem handOver_grants (s : State) (r : Slot) (a : Access) : (s.handOver r a).grants = s.grants := rfl
@[simp] theorem handOver_cache (s : State) (r : Slot) (a : Access) : (s.handOver r a).cache = s.cache := rfl
@[simp] theorem handOver_walker (s : State) (r : Slot) (a : Access) : (s.handOver r a).walker = s.walker := rfl
@[simp] theorem handOver_channels (s : State) (r : Slot) (a : Access) : (s.handOver r a).channels = s.channels := rfl
@[simp] theorem handOver_pointers (s : State) (r : Slot) (a : Access) : (s.handOver r a).pointers = s.pointers := rfl
@[simp] theorem handOver_engine (s : State) (r : Slot) (a : Access) : (s.handOver r a).engine = s.engine := rfl
@[simp] theorem handOver_queue (s : State) (r : Slot) (a : Access) : (s.handOver r a).queue = s.queue := rfl
@[simp] theorem handOver_urgent (s : State) (r : Slot) (a : Access) : (s.handOver r a).urgent = s.urgent := rfl
@[simp] theorem handOver_sbi (s : State) (r : Slot) (a : Access) : (s.handOver r a).sbi = s.sbi.handOver r a := rfl
@[simp] theorem handOver_window (s : State) (r : Slot) (a : Access) : (s.handOver r a).window = s.window := rfl
@[simp] theorem handOver_pins (s : State) (r : Slot) (a : Access) : (s.handOver r a).pins = s.pins := rfl
@[simp] theorem handOver_pending (s : State) (r : Slot) (a : Access) : (s.handOver r a).pending = s.pending := rfl

@[simp] theorem sampleLines_domains (s : State) (p : BitVec 8) : (s.sampleLines p).domains = s.domains := rfl
@[simp] theorem sampleLines_grants (s : State) (p : BitVec 8) : (s.sampleLines p).grants = s.grants := rfl
@[simp] theorem sampleLines_cache (s : State) (p : BitVec 8) : (s.sampleLines p).cache = s.cache := rfl
@[simp] theorem sampleLines_walker (s : State) (p : BitVec 8) : (s.sampleLines p).walker = s.walker := rfl
@[simp] theorem sampleLines_channels (s : State) (p : BitVec 8) : (s.sampleLines p).channels = s.channels := rfl
@[simp] theorem sampleLines_pointers (s : State) (p : BitVec 8) : (s.sampleLines p).pointers = s.pointers := rfl
@[simp] theorem sampleLines_engine (s : State) (p : BitVec 8) : (s.sampleLines p).engine = s.engine := rfl
@[simp] theorem sampleLines_queue (s : State) (p : BitVec 8) : (s.sampleLines p).queue = s.queue := rfl
@[simp] theorem sampleLines_urgent (s : State) (p : BitVec 8) : (s.sampleLines p).urgent = s.urgent := rfl
@[simp] theorem sampleLines_sbi (s : State) (p : BitVec 8) : (s.sampleLines p).sbi = s.sbi := rfl
@[simp] theorem sampleLines_window (s : State) (p : BitVec 8) : (s.sampleLines p).window = s.window := rfl
@[simp] theorem sampleLines_pins (s : State) (p : BitVec 8) : (s.sampleLines p).pins = { s.pins with preq := p } := rfl
@[simp] theorem sampleLines_pending (s : State) (p : BitVec 8) : (s.sampleLines p).pending = s.pending := rfl

@[simp] theorem setDone_domains (s : State) (c : ChannelId) : (s.setDone c).domains = s.domains := rfl
@[simp] theorem setDone_grants (s : State) (c : ChannelId) : (s.setDone c).grants = s.grants := rfl
@[simp] theorem setDone_cache (s : State) (c : ChannelId) : (s.setDone c).cache = s.cache := rfl
@[simp] theorem setDone_walker (s : State) (c : ChannelId) : (s.setDone c).walker = s.walker := rfl
@[simp] theorem setDone_channels (s : State) (c : ChannelId) : (s.setDone c).channels = s.channels := rfl
@[simp] theorem setDone_pointers (s : State) (c : ChannelId) : (s.setDone c).pointers = s.pointers := rfl
@[simp] theorem setDone_engine (s : State) (c : ChannelId) : (s.setDone c).engine = s.engine := rfl
@[simp] theorem setDone_queue (s : State) (c : ChannelId) : (s.setDone c).queue = s.queue := rfl
@[simp] theorem setDone_urgent (s : State) (c : ChannelId) : (s.setDone c).urgent = s.urgent := rfl
@[simp] theorem setDone_sbi (s : State) (c : ChannelId) : (s.setDone c).sbi = s.sbi := rfl
@[simp] theorem setDone_window (s : State) (c : ChannelId) :
    (s.setDone c).window = { s.window with done := s.window.done ||| doneMask c } := rfl
@[simp] theorem setDone_pins (s : State) (c : ChannelId) : (s.setDone c).pins = s.pins := rfl
@[simp] theorem setDone_pending (s : State) (c : ChannelId) : (s.setDone c).pending = s.pending := rfl

@[simp] theorem clearDone_domains (s : State) (m : BitVec 8) : (s.clearDone m).domains = s.domains := rfl
@[simp] theorem clearDone_grants (s : State) (m : BitVec 8) : (s.clearDone m).grants = s.grants := rfl
@[simp] theorem clearDone_cache (s : State) (m : BitVec 8) : (s.clearDone m).cache = s.cache := rfl
@[simp] theorem clearDone_walker (s : State) (m : BitVec 8) : (s.clearDone m).walker = s.walker := rfl
@[simp] theorem clearDone_channels (s : State) (m : BitVec 8) : (s.clearDone m).channels = s.channels := rfl
@[simp] theorem clearDone_pointers (s : State) (m : BitVec 8) : (s.clearDone m).pointers = s.pointers := rfl
@[simp] theorem clearDone_engine (s : State) (m : BitVec 8) : (s.clearDone m).engine = s.engine := rfl
@[simp] theorem clearDone_queue (s : State) (m : BitVec 8) : (s.clearDone m).queue = s.queue := rfl
@[simp] theorem clearDone_urgent (s : State) (m : BitVec 8) : (s.clearDone m).urgent = s.urgent := rfl
@[simp] theorem clearDone_sbi (s : State) (m : BitVec 8) : (s.clearDone m).sbi = s.sbi := rfl
@[simp] theorem clearDone_window (s : State) (m : BitVec 8) :
    (s.clearDone m).window = { s.window with done := s.window.done &&& ~~~m } := rfl
@[simp] theorem clearDone_pins (s : State) (m : BitVec 8) : (s.clearDone m).pins = s.pins := rfl
@[simp] theorem clearDone_pending (s : State) (m : BitVec 8) : (s.clearDone m).pending = s.pending := rfl

@[simp] theorem raiseUrgent_domains (s : State) : (s.raiseUrgent).domains = s.domains := rfl
@[simp] theorem raiseUrgent_grants (s : State) : (s.raiseUrgent).grants = s.grants := rfl
@[simp] theorem raiseUrgent_cache (s : State) : (s.raiseUrgent).cache = s.cache := rfl
@[simp] theorem raiseUrgent_walker (s : State) : (s.raiseUrgent).walker = s.walker := rfl
@[simp] theorem raiseUrgent_channels (s : State) : (s.raiseUrgent).channels = s.channels := rfl
@[simp] theorem raiseUrgent_pointers (s : State) : (s.raiseUrgent).pointers = s.pointers := rfl
@[simp] theorem raiseUrgent_engine (s : State) : (s.raiseUrgent).engine = s.engine := rfl
@[simp] theorem raiseUrgent_queue (s : State) : (s.raiseUrgent).queue = s.queue := rfl
@[simp] theorem raiseUrgent_urgent (s : State) : (s.raiseUrgent).urgent = s.urgent := rfl
@[simp] theorem raiseUrgent_sbi (s : State) : (s.raiseUrgent).sbi = s.sbi := rfl
@[simp] theorem raiseUrgent_window (s : State) : (s.raiseUrgent).window = { s.window with urgentCause := true } := rfl
@[simp] theorem raiseUrgent_pins (s : State) : (s.raiseUrgent).pins = s.pins := rfl
@[simp] theorem raiseUrgent_pending (s : State) : (s.raiseUrgent).pending = s.pending := rfl

@[simp] theorem raiseLock_domains (s : State) : (s.raiseLock).domains = s.domains := rfl
@[simp] theorem raiseLock_grants (s : State) : (s.raiseLock).grants = s.grants := rfl
@[simp] theorem raiseLock_cache (s : State) : (s.raiseLock).cache = s.cache := rfl
@[simp] theorem raiseLock_walker (s : State) : (s.raiseLock).walker = s.walker := rfl
@[simp] theorem raiseLock_channels (s : State) : (s.raiseLock).channels = s.channels := rfl
@[simp] theorem raiseLock_pointers (s : State) : (s.raiseLock).pointers = s.pointers := rfl
@[simp] theorem raiseLock_engine (s : State) : (s.raiseLock).engine = s.engine := rfl
@[simp] theorem raiseLock_queue (s : State) : (s.raiseLock).queue = s.queue := rfl
@[simp] theorem raiseLock_urgent (s : State) : (s.raiseLock).urgent = s.urgent := rfl
@[simp] theorem raiseLock_sbi (s : State) : (s.raiseLock).sbi = s.sbi := rfl
@[simp] theorem raiseLock_window (s : State) : (s.raiseLock).window = { s.window with lockCause := true } := rfl
@[simp] theorem raiseLock_pins (s : State) : (s.raiseLock).pins = s.pins := rfl
@[simp] theorem raiseLock_pending (s : State) : (s.raiseLock).pending = s.pending := rfl

@[simp] theorem lockTable_domains (s : State) : (s.lockTable).domains = s.domains := rfl
@[simp] theorem lockTable_grants (s : State) : (s.lockTable).grants = s.grants := rfl
@[simp] theorem lockTable_cache (s : State) : (s.lockTable).cache = s.cache := rfl
@[simp] theorem lockTable_walker (s : State) : (s.lockTable).walker = s.walker := rfl
@[simp] theorem lockTable_channels (s : State) : (s.lockTable).channels = s.channels := rfl
@[simp] theorem lockTable_pointers (s : State) : (s.lockTable).pointers = s.pointers := rfl
@[simp] theorem lockTable_engine (s : State) : (s.lockTable).engine = s.engine := rfl
@[simp] theorem lockTable_queue (s : State) : (s.lockTable).queue = s.queue := rfl
@[simp] theorem lockTable_urgent (s : State) : (s.lockTable).urgent = s.urgent := rfl
@[simp] theorem lockTable_sbi (s : State) : (s.lockTable).sbi = s.sbi := rfl
@[simp] theorem lockTable_window (s : State) : (s.lockTable).window = { s.window with tableLocked := true } := rfl
@[simp] theorem lockTable_pins (s : State) : (s.lockTable).pins = s.pins := rfl
@[simp] theorem lockTable_pending (s : State) : (s.lockTable).pending = s.pending := rfl

@[simp] theorem refuseWrite_domains (s : State) : (s.refuseWrite).domains = s.domains := rfl
@[simp] theorem refuseWrite_grants (s : State) : (s.refuseWrite).grants = s.grants := rfl
@[simp] theorem refuseWrite_cache (s : State) : (s.refuseWrite).cache = s.cache := rfl
@[simp] theorem refuseWrite_walker (s : State) : (s.refuseWrite).walker = s.walker := rfl
@[simp] theorem refuseWrite_channels (s : State) : (s.refuseWrite).channels = s.channels := rfl
@[simp] theorem refuseWrite_pointers (s : State) : (s.refuseWrite).pointers = s.pointers := rfl
@[simp] theorem refuseWrite_engine (s : State) : (s.refuseWrite).engine = s.engine := rfl
@[simp] theorem refuseWrite_queue (s : State) : (s.refuseWrite).queue = s.queue := rfl
@[simp] theorem refuseWrite_urgent (s : State) : (s.refuseWrite).urgent = s.urgent := rfl
@[simp] theorem refuseWrite_sbi (s : State) : (s.refuseWrite).sbi = s.sbi := rfl
@[simp] theorem refuseWrite_window (s : State) : (s.refuseWrite).window = { s.window with refused := true } := rfl
@[simp] theorem refuseWrite_pins (s : State) : (s.refuseWrite).pins = s.pins := rfl
@[simp] theorem refuseWrite_pending (s : State) : (s.refuseWrite).pending = s.pending := rfl

@[simp] theorem setRes_domains (s : State) (r : Result) : (s.setRes r).domains = s.domains := rfl
@[simp] theorem setRes_grants (s : State) (r : Result) : (s.setRes r).grants = s.grants := rfl
@[simp] theorem setRes_cache (s : State) (r : Result) : (s.setRes r).cache = s.cache := rfl
@[simp] theorem setRes_walker (s : State) (r : Result) : (s.setRes r).walker = s.walker := rfl
@[simp] theorem setRes_channels (s : State) (r : Result) : (s.setRes r).channels = s.channels := rfl
@[simp] theorem setRes_pointers (s : State) (r : Result) : (s.setRes r).pointers = s.pointers := rfl
@[simp] theorem setRes_engine (s : State) (r : Result) : (s.setRes r).engine = s.engine := rfl
@[simp] theorem setRes_queue (s : State) (r : Result) : (s.setRes r).queue = s.queue := rfl
@[simp] theorem setRes_urgent (s : State) (r : Result) : (s.setRes r).urgent = s.urgent := rfl
@[simp] theorem setRes_sbi (s : State) (r : Result) : (s.setRes r).sbi = s.sbi := rfl
@[simp] theorem setRes_window (s : State) (r : Result) : (s.setRes r).window = { s.window with res := r } := rfl
@[simp] theorem setRes_pins (s : State) (r : Result) : (s.setRes r).pins = s.pins := rfl
@[simp] theorem setRes_pending (s : State) (r : Result) : (s.setRes r).pending = s.pending := rfl

@[simp] theorem latch_domains (s : State) (k : Byte) : (s.latch k).domains = s.domains := rfl
@[simp] theorem latch_grants (s : State) (k : Byte) : (s.latch k).grants = s.grants := rfl
@[simp] theorem latch_cache (s : State) (k : Byte) : (s.latch k).cache = s.cache := rfl
@[simp] theorem latch_walker (s : State) (k : Byte) : (s.latch k).walker = s.walker := rfl
@[simp] theorem latch_channels (s : State) (k : Byte) : (s.latch k).channels = s.channels := rfl
@[simp] theorem latch_pointers (s : State) (k : Byte) : (s.latch k).pointers = s.pointers := rfl
@[simp] theorem latch_engine (s : State) (k : Byte) : (s.latch k).engine = s.engine := rfl
@[simp] theorem latch_queue (s : State) (k : Byte) : (s.latch k).queue = s.queue := rfl
@[simp] theorem latch_urgent (s : State) (k : Byte) : (s.latch k).urgent = s.urgent := rfl
@[simp] theorem latch_sbi (s : State) (k : Byte) : (s.latch k).sbi = s.sbi := rfl
@[simp] theorem latch_window (s : State) (k : Byte) :
    (s.latch k).window = { s.window with cmd := k, latched := some s.window.args } := rfl
@[simp] theorem latch_pins (s : State) (k : Byte) : (s.latch k).pins = s.pins := rfl
@[simp] theorem latch_pending (s : State) (k : Byte) : (s.latch k).pending = s.pending := rfl

@[simp] theorem answerProbe_domains (s : State) (r : ProbeResult) : (s.answerProbe r).domains = s.domains := rfl
@[simp] theorem answerProbe_grants (s : State) (r : ProbeResult) : (s.answerProbe r).grants = s.grants := rfl
@[simp] theorem answerProbe_cache (s : State) (r : ProbeResult) : (s.answerProbe r).cache = s.cache := rfl
@[simp] theorem answerProbe_walker (s : State) (r : ProbeResult) : (s.answerProbe r).walker = s.walker := rfl
@[simp] theorem answerProbe_channels (s : State) (r : ProbeResult) : (s.answerProbe r).channels = s.channels := rfl
@[simp] theorem answerProbe_pointers (s : State) (r : ProbeResult) : (s.answerProbe r).pointers = s.pointers := rfl
@[simp] theorem answerProbe_engine (s : State) (r : ProbeResult) : (s.answerProbe r).engine = s.engine := rfl
@[simp] theorem answerProbe_queue (s : State) (r : ProbeResult) : (s.answerProbe r).queue = s.queue := rfl
@[simp] theorem answerProbe_urgent (s : State) (r : ProbeResult) : (s.answerProbe r).urgent = s.urgent := rfl
@[simp] theorem answerProbe_sbi (s : State) (r : ProbeResult) : (s.answerProbe r).sbi = s.sbi := rfl
@[simp] theorem answerProbe_window (s : State) (r : ProbeResult) :
    (s.answerProbe r).window = { s.window with probe := r, cmdCause := true, busy := false } := rfl
@[simp] theorem answerProbe_pins (s : State) (r : ProbeResult) : (s.answerProbe r).pins = s.pins := rfl
@[simp] theorem answerProbe_pending (s : State) (r : ProbeResult) : (s.answerProbe r).pending = s.pending := rfl

@[simp] theorem modChannel_domains (s : State) (c : ChannelId) (f : Channel → Channel) :
    (s.modChannel c f).domains = s.domains := rfl
@[simp] theorem modChannel_grants (s : State) (c : ChannelId) (f : Channel → Channel) :
    (s.modChannel c f).grants = s.grants := rfl
@[simp] theorem modChannel_cache (s : State) (c : ChannelId) (f : Channel → Channel) :
    (s.modChannel c f).cache = s.cache := rfl
@[simp] theorem modChannel_walker (s : State) (c : ChannelId) (f : Channel → Channel) :
    (s.modChannel c f).walker = s.walker := rfl
@[simp] theorem modChannel_channels (s : State) (c : ChannelId) (f : Channel → Channel) :
    (s.modChannel c f).channels = s.channels.set c (f s.channels[c]) := rfl
@[simp] theorem modChannel_pointers (s : State) (c : ChannelId) (f : Channel → Channel) :
    (s.modChannel c f).pointers = s.pointers := rfl
@[simp] theorem modChannel_engine (s : State) (c : ChannelId) (f : Channel → Channel) :
    (s.modChannel c f).engine = s.engine := rfl
@[simp] theorem modChannel_queue (s : State) (c : ChannelId) (f : Channel → Channel) :
    (s.modChannel c f).queue = s.queue := rfl
@[simp] theorem modChannel_urgent (s : State) (c : ChannelId) (f : Channel → Channel) :
    (s.modChannel c f).urgent = s.urgent := rfl
@[simp] theorem modChannel_sbi (s : State) (c : ChannelId) (f : Channel → Channel) :
    (s.modChannel c f).sbi = s.sbi := rfl
@[simp] theorem modChannel_window (s : State) (c : ChannelId) (f : Channel → Channel) :
    (s.modChannel c f).window = s.window := rfl
@[simp] theorem modChannel_pins (s : State) (c : ChannelId) (f : Channel → Channel) :
    (s.modChannel c f).pins = s.pins := rfl
@[simp] theorem modChannel_pending (s : State) (c : ChannelId) (f : Channel → Channel) :
    (s.modChannel c f).pending = s.pending := rfl

@[simp] theorem endService_domains (s : State) (c : ChannelId) (st : ChannelState) :
    (s.endService c st).domains = s.domains := rfl
@[simp] theorem endService_grants (s : State) (c : ChannelId) (st : ChannelState) :
    (s.endService c st).grants = s.grants := rfl
@[simp] theorem endService_cache (s : State) (c : ChannelId) (st : ChannelState) :
    (s.endService c st).cache = s.cache := rfl
@[simp] theorem endService_walker (s : State) (c : ChannelId) (st : ChannelState) :
    (s.endService c st).walker = s.walker := rfl
@[simp] theorem endService_channels (s : State) (c : ChannelId) (st : ChannelState) :
    (s.endService c st).channels = s.channels.set c (s.channels[c].leave st) := rfl
@[simp] theorem endService_pointers (s : State) (c : ChannelId) (st : ChannelState) :
    (s.endService c st).pointers = s.pointers := rfl
@[simp] theorem endService_engine (s : State) (c : ChannelId) (st : ChannelState) :
    (s.endService c st).engine = Engine.free := rfl
@[simp] theorem endService_queue (s : State) (c : ChannelId) (st : ChannelState) :
    (s.endService c st).queue = s.queue := rfl
@[simp] theorem endService_urgent (s : State) (c : ChannelId) (st : ChannelState) :
    (s.endService c st).urgent = s.urgent := rfl
@[simp] theorem endService_sbi (s : State) (c : ChannelId) (st : ChannelState) : (s.endService c st).sbi = s.sbi := rfl
@[simp] theorem endService_window (s : State) (c : ChannelId) (st : ChannelState) :
    (s.endService c st).window = s.window := rfl
@[simp] theorem endService_pins (s : State) (c : ChannelId) (st : ChannelState) :
    (s.endService c st).pins = s.pins := rfl
@[simp] theorem endService_pending (s : State) (c : ChannelId) (st : ChannelState) :
    (s.endService c st).pending = s.pending := rfl

@[simp] theorem enterHold_domains (s : State) (f : UrgentFault) : (s.enterHold f).domains = s.domains := rfl
@[simp] theorem enterHold_grants (s : State) (f : UrgentFault) : (s.enterHold f).grants = s.grants := rfl
@[simp] theorem enterHold_cache (s : State) (f : UrgentFault) : (s.enterHold f).cache = s.cache := rfl
@[simp] theorem enterHold_walker (s : State) (f : UrgentFault) : (s.enterHold f).walker = s.walker := rfl
@[simp] theorem enterHold_channels (s : State) (f : UrgentFault) : (s.enterHold f).channels = s.channels := rfl
@[simp] theorem enterHold_pointers (s : State) (f : UrgentFault) : (s.enterHold f).pointers = s.pointers := rfl
@[simp] theorem enterHold_engine (s : State) (f : UrgentFault) : (s.enterHold f).engine = Engine.free := rfl
@[simp] theorem enterHold_queue (s : State) (f : UrgentFault) : (s.enterHold f).queue = s.queue := rfl
@[simp] theorem enterHold_urgent (s : State) (f : UrgentFault) :
    (s.enterHold f).urgent = { s.urgent with mode := .urgentHold, fault := f } := rfl
@[simp] theorem enterHold_sbi (s : State) (f : UrgentFault) : (s.enterHold f).sbi = s.sbi := rfl
@[simp] theorem enterHold_window (s : State) (f : UrgentFault) :
    (s.enterHold f).window = { s.window with urgentCause := true } := rfl
@[simp] theorem enterHold_pins (s : State) (f : UrgentFault) : (s.enterHold f).pins = s.pins := rfl
@[simp] theorem enterHold_pending (s : State) (f : UrgentFault) : (s.enterHold f).pending = s.pending := rfl

@[simp] theorem lockPart_domains (s : State) (k : LockKind) (n : Nat) : (s.lockPart k n).domains = s.domains := rfl
@[simp] theorem lockPart_grants (s : State) (k : LockKind) (n : Nat) : (s.lockPart k n).grants = s.grants := rfl
@[simp] theorem lockPart_cache (s : State) (k : LockKind) (n : Nat) : (s.lockPart k n).cache = s.cache := rfl
@[simp] theorem lockPart_walker (s : State) (k : LockKind) (n : Nat) : (s.lockPart k n).walker = s.walker := rfl
@[simp] theorem lockPart_channels (s : State) (k : LockKind) (n : Nat) : (s.lockPart k n).channels = s.channels := rfl
@[simp] theorem lockPart_pointers (s : State) (k : LockKind) (n : Nat) : (s.lockPart k n).pointers = s.pointers := rfl
@[simp] theorem lockPart_engine (s : State) (k : LockKind) (n : Nat) : (s.lockPart k n).engine = s.engine := rfl
@[simp] theorem lockPart_queue (s : State) (k : LockKind) (n : Nat) : (s.lockPart k n).queue = s.queue := rfl
@[simp] theorem lockPart_urgent (s : State) (k : LockKind) (n : Nat) :
    (s.lockPart k n).urgent = { s.urgent with
      mode := .locked, lock := { kind := k, place := BitVec.ofNat 8 n }, latch := none } := rfl
@[simp] theorem lockPart_sbi (s : State) (k : LockKind) (n : Nat) : (s.lockPart k n).sbi = s.sbi := rfl
@[simp] theorem lockPart_window (s : State) (k : LockKind) (n : Nat) :
    (s.lockPart k n).window = { s.window with lockCause := true } := rfl
@[simp] theorem lockPart_pins (s : State) (k : LockKind) (n : Nat) : (s.lockPart k n).pins = s.pins := rfl
@[simp] theorem lockPart_pending (s : State) (k : LockKind) (n : Nat) : (s.lockPart k n).pending = s.pending := rfl

@[simp] theorem mapChannels_domains (s : State) (f : ChannelId → Channel → Channel) :
    (s.mapChannels f).domains = s.domains := by unfold State.mapChannels; rfl
@[simp] theorem mapChannels_grants (s : State) (f : ChannelId → Channel → Channel) :
    (s.mapChannels f).grants = s.grants := by unfold State.mapChannels; rfl
@[simp] theorem mapChannels_cache (s : State) (f : ChannelId → Channel → Channel) :
    (s.mapChannels f).cache = s.cache := by unfold State.mapChannels; rfl
@[simp] theorem mapChannels_walker (s : State) (f : ChannelId → Channel → Channel) :
    (s.mapChannels f).walker = s.walker := by unfold State.mapChannels; rfl
@[simp] theorem mapChannels_channels (s : State) (f : ChannelId → Channel → Channel) :
    (s.mapChannels f).channels = updateEach allChannels f s.channels := by unfold State.mapChannels; rfl
@[simp] theorem mapChannels_pointers (s : State) (f : ChannelId → Channel → Channel) :
    (s.mapChannels f).pointers = s.pointers := by unfold State.mapChannels; rfl
@[simp] theorem mapChannels_engine (s : State) (f : ChannelId → Channel → Channel) :
    (s.mapChannels f).engine = s.engine := by unfold State.mapChannels; rfl
@[simp] theorem mapChannels_queue (s : State) (f : ChannelId → Channel → Channel) :
    (s.mapChannels f).queue = s.queue := by unfold State.mapChannels; rfl
@[simp] theorem mapChannels_urgent (s : State) (f : ChannelId → Channel → Channel) :
    (s.mapChannels f).urgent = s.urgent := by unfold State.mapChannels; rfl
@[simp] theorem mapChannels_sbi (s : State) (f : ChannelId → Channel → Channel) :
    (s.mapChannels f).sbi = s.sbi := by unfold State.mapChannels; rfl
@[simp] theorem mapChannels_window (s : State) (f : ChannelId → Channel → Channel) :
    (s.mapChannels f).window = s.window := by unfold State.mapChannels; rfl
@[simp] theorem mapChannels_pins (s : State) (f : ChannelId → Channel → Channel) :
    (s.mapChannels f).pins = s.pins := by unfold State.mapChannels; rfl
@[simp] theorem mapChannels_pending (s : State) (f : ChannelId → Channel → Channel) :
    (s.mapChannels f).pending = s.pending := by unfold State.mapChannels; rfl

@[simp] theorem invalidate_domains (s : State) (m : CacheEntry → Bool) :
    (s.invalidate m).domains = s.domains := by unfold State.invalidate; rfl
@[simp] theorem invalidate_grants (s : State) (m : CacheEntry → Bool) :
    (s.invalidate m).grants = s.grants := by unfold State.invalidate; rfl
@[simp] theorem invalidate_cache (s : State) (m : CacheEntry → Bool) :
    (s.invalidate m).cache =
      updateEach allSets (fun _ t => invalidateSet t m) s.cache := by unfold State.invalidate; rfl
@[simp] theorem invalidate_walker (s : State) (m : CacheEntry → Bool) :
    (s.invalidate m).walker = s.walker := by unfold State.invalidate; rfl
@[simp] theorem invalidate_channels (s : State) (m : CacheEntry → Bool) :
    (s.invalidate m).channels = s.channels := by unfold State.invalidate; rfl
@[simp] theorem invalidate_pointers (s : State) (m : CacheEntry → Bool) :
    (s.invalidate m).pointers = s.pointers := by unfold State.invalidate; rfl
@[simp] theorem invalidate_engine (s : State) (m : CacheEntry → Bool) :
    (s.invalidate m).engine = s.engine := by unfold State.invalidate; rfl
@[simp] theorem invalidate_queue (s : State) (m : CacheEntry → Bool) :
    (s.invalidate m).queue = s.queue := by unfold State.invalidate; rfl
@[simp] theorem invalidate_urgent (s : State) (m : CacheEntry → Bool) :
    (s.invalidate m).urgent = s.urgent := by unfold State.invalidate; rfl
@[simp] theorem invalidate_sbi (s : State) (m : CacheEntry → Bool) :
    (s.invalidate m).sbi = s.sbi := by unfold State.invalidate; rfl
@[simp] theorem invalidate_window (s : State) (m : CacheEntry → Bool) :
    (s.invalidate m).window = s.window := by unfold State.invalidate; rfl
@[simp] theorem invalidate_pins (s : State) (m : CacheEntry → Bool) :
    (s.invalidate m).pins = s.pins := by unfold State.invalidate; rfl
@[simp] theorem invalidate_pending (s : State) (m : CacheEntry → Bool) :
    (s.invalidate m).pending = s.pending := by unfold State.invalidate; rfl

@[simp] theorem loadImage_domains (s : State) : (s.loadImage).domains = s.domains := by unfold State.loadImage; rfl
@[simp] theorem loadImage_grants (s : State) : (s.loadImage).grants = s.grants := by unfold State.loadImage; rfl
@[simp] theorem loadImage_cache (s : State) : (s.loadImage).cache = s.cache := by unfold State.loadImage; rfl
@[simp] theorem loadImage_walker (s : State) : (s.loadImage).walker = s.walker := by unfold State.loadImage; rfl
@[simp] theorem loadImage_channels (s : State) :
    (s.loadImage).channels =
      updateEach allChannels (fun c x => x.loadRecord (imageRecord s.urgent.image c)) s.channels := by
  unfold State.loadImage; rfl
@[simp] theorem loadImage_pointers (s : State) : (s.loadImage).pointers = s.pointers := by unfold State.loadImage; rfl
@[simp] theorem loadImage_engine (s : State) : (s.loadImage).engine = s.engine := by unfold State.loadImage; rfl
@[simp] theorem loadImage_queue (s : State) : (s.loadImage).queue = s.queue := by unfold State.loadImage; rfl
@[simp] theorem loadImage_urgent (s : State) : (s.loadImage).urgent = s.urgent := by unfold State.loadImage; rfl
@[simp] theorem loadImage_sbi (s : State) : (s.loadImage).sbi = s.sbi := by unfold State.loadImage; rfl
@[simp] theorem loadImage_window (s : State) :
    (s.loadImage).window =
      { s.window with done := marksOf s.urgent.image s.window.done } := by unfold State.loadImage; rfl
@[simp] theorem loadImage_pins (s : State) : (s.loadImage).pins = s.pins := by unfold State.loadImage; rfl
@[simp] theorem loadImage_pending (s : State) : (s.loadImage).pending = s.pending := by unfold State.loadImage; rfl

@[simp] theorem resetBlocks_domains (s : State) :
    (s.resetBlocks).domains = s.domains := by unfold State.resetBlocks; rfl
@[simp] theorem resetBlocks_grants (s : State) : (s.resetBlocks).grants = s.grants := by unfold State.resetBlocks; rfl
@[simp] theorem resetBlocks_cache (s : State) :
    (s.resetBlocks).cache = s.clearCache.cache := by unfold State.resetBlocks; rfl
@[simp] theorem resetBlocks_walker (s : State) :
    (s.resetBlocks).walker = s.walker.endReset := by unfold State.resetBlocks; rfl
@[simp] theorem resetBlocks_channels (s : State) :
    (s.resetBlocks).channels = Vector.replicate 8 Channel.reset := by unfold State.resetBlocks; rfl
@[simp] theorem resetBlocks_pointers (s : State) :
    (s.resetBlocks).pointers = Vector.replicate 4 7 := by unfold State.resetBlocks; rfl
@[simp] theorem resetBlocks_engine (s : State) :
    (s.resetBlocks).engine = Engine.free := by unfold State.resetBlocks; rfl
@[simp] theorem resetBlocks_queue (s : State) : (s.resetBlocks).queue = [] := by unfold State.resetBlocks; rfl
@[simp] theorem resetBlocks_urgent (s : State) :
    (s.resetBlocks).urgent = s.urgent.endReset := by unfold State.resetBlocks; rfl
@[simp] theorem resetBlocks_sbi (s : State) : (s.resetBlocks).sbi = s.sbi.endReset := by unfold State.resetBlocks; rfl
@[simp] theorem resetBlocks_window (s : State) :
    (s.resetBlocks).window = s.window.endReset := by unfold State.resetBlocks; rfl
@[simp] theorem resetBlocks_pins (s : State) : (s.resetBlocks).pins = s.pins := by unfold State.resetBlocks; rfl
@[simp] theorem resetBlocks_pending (s : State) :
    (s.resetBlocks).pending = s.pending := by unfold State.resetBlocks; rfl

@[simp] theorem endWalk_domains (s : State) : (s.endWalk).domains = s.domains := rfl
@[simp] theorem endWalk_grants (s : State) : (s.endWalk).grants = s.grants := rfl
@[simp] theorem endWalk_cache (s : State) : (s.endWalk).cache = s.cache := rfl
@[simp] theorem endWalk_walker (s : State) :
    (s.endWalk).walker = { s.walker with state := .idle, stale := false } := rfl
@[simp] theorem endWalk_channels (s : State) : (s.endWalk).channels = s.channels := rfl
@[simp] theorem endWalk_pointers (s : State) : (s.endWalk).pointers = s.pointers := rfl
@[simp] theorem endWalk_engine (s : State) : (s.endWalk).engine = s.engine := rfl
@[simp] theorem endWalk_queue (s : State) : (s.endWalk).queue = s.queue := rfl
@[simp] theorem endWalk_urgent (s : State) : (s.endWalk).urgent = s.urgent := rfl
@[simp] theorem endWalk_sbi (s : State) : (s.endWalk).sbi = s.sbi := rfl
@[simp] theorem endWalk_window (s : State) : (s.endWalk).window = s.window := rfl
@[simp] theorem endWalk_pins (s : State) : (s.endWalk).pins = s.pins := rfl
@[simp] theorem endWalk_pending (s : State) : (s.endWalk).pending = s.pending := rfl

@[simp] theorem settleBus_domains (s : State) : s.settleBus.domains = s.domains := by
  unfold State.settleBus; split <;> rfl
@[simp] theorem settleBus_grants (s : State) : s.settleBus.grants = s.grants := by
  unfold State.settleBus; split <;> rfl
@[simp] theorem settleBus_cache (s : State) : s.settleBus.cache = s.cache := by
  unfold State.settleBus; split <;> rfl
@[simp] theorem settleBus_walker (s : State) : s.settleBus.walker = s.walker := by
  unfold State.settleBus; split <;> rfl
@[simp] theorem settleBus_channels (s : State) : s.settleBus.channels = s.channels := by
  unfold State.settleBus; split <;> rfl
@[simp] theorem settleBus_pointers (s : State) : s.settleBus.pointers = s.pointers := by
  unfold State.settleBus; split <;> rfl
@[simp] theorem settleBus_engine (s : State) : s.settleBus.engine = s.engine := by
  unfold State.settleBus; split <;> rfl
@[simp] theorem settleBus_queue (s : State) : s.settleBus.queue = s.queue := by
  unfold State.settleBus; split <;> rfl
@[simp] theorem settleBus_urgent (s : State) : s.settleBus.urgent = s.urgent := by
  unfold State.settleBus; split <;> rfl
@[simp] theorem settleBus_window (s : State) : s.settleBus.window = s.window := by
  unfold State.settleBus; split <;> rfl
@[simp] theorem settleBus_pins (s : State) : s.settleBus.pins = s.pins := by
  unfold State.settleBus; split <;> rfl
@[simp] theorem settleBus_pending (s : State) : s.settleBus.pending = s.pending := by
  unfold State.settleBus; split <;> rfl

end Sys2Proof.Machine.State
end

