-- ==== Sys2Proof/Laws/Cache.lean ====
section
/-! SUPPORT. What the operations on tables and on the translation cache do, entry by entry (R39 to R53). -/

namespace Sys2Proof.Machine

/-! ### Tables -/

theorem set_getElem {α : Type} {n : Nat} (v : Vector α n) (i k : Fin n) (x : α) :
    (v.set k x)[i] = if i = k then x else v[i] := by
  by_cases h : i = k
  · subst h; simp
  · rw [if_neg h]
    exact Vector.getElem_set_ne _ _ (fun e => h (Fin.ext e.symm))

/-- Each listed entry is changed once, from its own content. -/
theorem updateEach_getElem {α : Type} {n : Nat} (l : List (Fin n)) (hl : l.Nodup) (f : Fin n → α → α) (v : Vector α n)
    (i : Fin n) : (updateEach l f v)[i] = if i ∈ l then f i v[i] else v[i] := by
  unfold updateEach
  induction l generalizing v with
  | nil => simp
  | cons k l ih =>
    obtain ⟨hk, hl⟩ := List.nodup_cons.mp hl
    rw [List.foldl_cons, ih hl, set_getElem]
    by_cases h : i = k
    · subst h; simp [hk]
    · simp [h]

theorem allWays_mem (w : Fin 4) : w ∈ allWays := by revert w; decide

theorem allSets_mem (i : Fin 16) : i ∈ allSets := by revert i; decide

theorem allChannels_mem (c : ChannelId) : c ∈ allChannels := by revert c; decide

theorem updateWays_getElem {α : Type} (f : Fin 4 → α → α) (v : Vector α 4) (i : Fin 4) :
    (updateEach allWays f v)[i] = f i v[i] := by
  rw [updateEach_getElem _ (by decide), if_pos (allWays_mem i)]

theorem updateSets_getElem {α : Type} (f : Fin 16 → α → α) (v : Vector α 16) (i : Fin 16) :
    (updateEach allSets f v)[i] = f i v[i] := by
  rw [updateEach_getElem _ (by decide), if_pos (allSets_mem i)]

theorem updateChannels_getElem {α : Type} (f : ChannelId → α → α) (v : Vector α 8) (c : ChannelId) :
    (updateEach allChannels f v)[c] = f c v[c] := by
  rw [updateEach_getElem _ (by decide), if_pos (allChannels_mem c)]

theorem mapChannels_getElem (s : State) (f : ChannelId → Channel → Channel) (c : ChannelId) :
    (s.mapChannels f).channels[c] = f c s.channels[c] := updateChannels_getElem f s.channels c

/-! ### Invalidations (R47 to R49) -/

theorem invalidateSet_getElem (t : CacheSet) (m : CacheEntry → Bool) (w : Fin 4) :
    (invalidateSet t m)[w] = if m t[w] then t[w].invalidate else t[w] := updateWays_getElem _ t w

theorem invalidate_cache (s : State) (m : CacheEntry → Bool) (i : Fin 16) :
    (s.invalidate m).cache[i] = invalidateSet s.cache[i] m :=
  updateSets_getElem (fun _ t => invalidateSet t m) s.cache i

theorem invalidate_getElem (s : State) (m : CacheEntry → Bool) (i : Fin 16) (w : Fin 4) :
    (s.invalidate m).cache[i][w] = if m s.cache[i][w] then s.cache[i][w].invalidate else s.cache[i][w] := by
  rw [invalidate_cache, invalidateSet_getElem]

/-! ### Marks (R44) -/

theorem markWay_getElem (t : CacheSet) (w i : Fin 4) :
    (markWay t w)[i] = if i = w then { t[i] with referenced := true } else t[i] := by
  unfold markWay
  rw [set_getElem]
  by_cases h : i = w
  · subst h; rfl
  · rw [if_neg h, if_neg h]

theorem unmarkOthers_getElem (t : CacheSet) (w i : Fin 4) :
    (unmarkOthers t w)[i] = if i = w then t[i] else { t[i] with referenced := false } := updateWays_getElem _ t i

/-- A mark changes nothing but the marks of its set. -/
theorem markReferenced_fields (t : CacheSet) (w i : Fin 4) :
    (markReferenced t w)[i] = { t[i] with referenced := (markReferenced t w)[i].referenced } := by
  unfold markReferenced
  split <;> (try rw [unmarkOthers_getElem]) <;> rw [markWay_getElem] <;> by_cases h : i = w <;> simp only [if_pos, h] <;> rfl

/-- The marked way is marked. -/
theorem markReferenced_self (t : CacheSet) (w : Fin 4) : (markReferenced t w)[w].referenced = true := by
  unfold markReferenced
  split
  · rw [unmarkOthers_getElem, if_pos rfl, markWay_getElem, if_pos rfl]
  · rw [markWay_getElem, if_pos rfl]

/-- After a mark not all four ways are marked. -/
theorem markReferenced_clear (t : CacheSet) (w : Fin 4) : ∃ i : Fin 4, (markReferenced t w)[i].referenced = false := by
  unfold markReferenced
  split
  · refine ⟨w + 1, ?_⟩
    have h : w + 1 ≠ w := by clear * -; revert w; decide
    rw [unmarkOthers_getElem, if_neg h]
  · rename_i h
    simpa [allMarked, allWays_mem] using h

/-- A lookup that hits names a way that holds the page (R40). -/
theorem hitWay_some {t : CacheSet} {d : DomainId} {p : Vpn} {w : Fin 4} (h : hitWay t d p = some w) :
    t[w].hits d p = true := by
  have := List.find?_some h
  simpa using this

/-- A lookup that misses finds no way that holds the page (R40). -/
theorem hitWay_none {t : CacheSet} {d : DomainId} {p : Vpn} (h : hitWay t d p = none) (w : Fin 4) :
    t[w].hits d p = false := by
  have := List.find?_eq_none.mp h w (allWays_mem w)
  simpa using this

/-! ### Installs (R43) -/

/-- The entry that an install writes, before its mark. -/
theorem installInto_getElem (t : CacheSet) (x : Translation) (i : Fin 4) :
    (installInto t x)[i] =
      { (if i = installWay t x.domain x.vpn then
          { valid := true, referenced := true, domain := x.domain, vpn := x.vpn, frame := x.frame,
            writable := x.writable, writtenKnown := x.writtenKnown }
         else t[i]) with referenced := (installInto t x)[i].referenced } := by
  unfold installInto
  simp only
  rw [markReferenced_fields, set_getElem]
  by_cases h : i = installWay t x.domain x.vpn
  · simp only [if_pos h]
  · simp only [if_neg h]

/-- The installed way is marked. -/
theorem installInto_marked (t : CacheSet) (x : Translation) :
    (installInto t x)[installWay t x.domain x.vpn].referenced = true := markReferenced_self _ _

/-- After an install not all four ways are marked. -/
theorem installInto_clear (t : CacheSet) (x : Translation) : ∃ i : Fin 4, (installInto t x)[i].referenced = false :=
  markReferenced_clear _ _

/-- The way that an install takes held the page, or no way did and it was invalid, or no way did, none was invalid, and it was
unreferenced where some way was. -/
theorem installWay_spec {t : CacheSet} {d : DomainId} {p : Vpn} {k : Fin 4} (hk : installWay t d p = k) :
    hitWay t d p = some k
    ∨ (hitWay t d p = none ∧ t[k].valid = false)
    ∨ (hitWay t d p = none ∧ (∀ w : Fin 4, t[w].valid = true)
        ∧ ((∃ w : Fin 4, t[w].referenced = false) → t[k].referenced = false)) := by
  unfold installWay at hk
  cases h : hitWay t d p with
  | some w =>
    simp only [h] at hk
    exact .inl (by rw [hk])
  | none =>
    simp only [h] at hk
    cases hw : allWays.find? (fun w => !t[w].valid) with
    | some w =>
      simp only [hw] at hk
      subst hk
      have := List.find?_some hw
      exact .inr (.inl ⟨rfl, by simpa using this⟩)
    | none =>
      simp only [hw] at hk
      refine .inr (.inr ⟨rfl, fun w => ?_, ?_⟩)
      · have := List.find?_eq_none.mp hw w (allWays_mem w)
        simpa using this
      · rintro ⟨w, hr⟩
        cases hf : allWays.find? (fun w => !t[w].referenced) with
        | none =>
          have := List.find?_eq_none.mp hf w (allWays_mem w)
          exact absurd hr (by simpa using this)
        | some j =>
          rw [hf, Option.getD_some] at hk
          subst hk
          have := List.find?_some hf
          simpa using this

end Sys2Proof.Machine
end

