-- ==== Sys2Proof/Laws/Engine.lean ====
section
/-! SUPPORT. What the operations of the Transfer Engine can do to the part, said once: an action goes on, or ends its
service, or faults (06_scheduling_and_the_transfer_engine.md). -/

namespace Sys2Proof.Machine

/-! ### The cache under the part's operations -/

/-- `P` is kept by every operation that the part makes on its cache: marks, installs and invalidations. -/
structure CacheClosed (P : Vector CacheSet 16 → Prop) : Prop where
  mark : ∀ v (i : Fin 16) (w : Fin 4), P v → P (v.set i (markReferenced v[i] w))
  install : ∀ v (x : Translation), P v → P (v.set (setOf x.vpn) (installInto v[setOf x.vpn] x))
  invalidate : ∀ v (m : CacheEntry → Bool), P v → P (updateEach allSets (fun _ t => invalidateSet t m) v)
  invalidateOne : ∀ v (i : Fin 16) (m : CacheEntry → Bool), P v → P (v.set i (invalidateSet v[i] m))

/-! ### An action goes on -/

/-- `t` is `s` but for marks in the cache, the Engine's request to the walker, the SBI, and the Engine's record, in which the
service and the server stand. -/
structure Goes (s t : State) : Prop where
  domains : t.domains = s.domains
  grants : t.grants = s.grants
  cache : ∀ P, CacheClosed P → P s.cache → P t.cache
  tags : ∀ (i : Fin 16) (w : Fin 4), t.cache[i][w] = { s.cache[i][w] with referenced := t.cache[i][w].referenced }
  walker : t.walker = { s.walker with engineWaiting := t.walker.engineWaiting }
  channels : t.channels = s.channels
  pointers : t.pointers = s.pointers
  service : t.engine.service = s.engine.service
  server : t.engine.server = s.engine.server
  queue : t.queue = s.queue
  urgent : t.urgent = s.urgent
  window : t.window = s.window
  pins : t.pins = s.pins
  pending : t.pending = s.pending

theorem Goes.refl (s : State) : Goes s s := by constructor <;> first | rfl | exact fun _ _ h => h | exact fun _ _ => rfl

theorem Goes.trans {s t u : State} (h : Goes s t) (k : Goes t u) : Goes s u where
  domains := k.domains.trans h.domains
  grants := k.grants.trans h.grants
  cache := fun P c p => k.cache P c (h.cache P c p)
  tags := fun i w => by rw [k.tags i w, h.tags i w]
  walker := by rw [k.walker, h.walker]
  channels := k.channels.trans h.channels
  pointers := k.pointers.trans h.pointers
  service := k.service.trans h.service
  server := k.server.trans h.server
  queue := k.queue.trans h.queue
  urgent := k.urgent.trans h.urgent
  window := k.window.trans h.window
  pins := k.pins.trans h.pins
  pending := k.pending.trans h.pending

theorem Goes.handOver (s : State) (r : Slot) (a : Access) : Goes s (s.handOver r a) := by
  constructor <;> first | rfl | exact fun _ _ h => h | exact fun _ _ => rfl

/-- A mark changes the referenced fields alone (R44). -/
theorem touch_fields (s : State) (j : Fin 16) (k : Fin 4) (i : Fin 16) (w : Fin 4) :
    (s.touch j k).cache[i][w] = { s.cache[i][w] with referenced := (s.touch j k).cache[i][w].referenced } := by
  unfold State.touch State.setCacheSet
  rw [set_getElem]
  split
  · rename_i h; subst h; exact markReferenced_fields _ _ _
  · rfl

theorem Goes.touch (s : State) (i : Fin 16) (w : Fin 4) : Goes s (s.touch i w) := by
  constructor <;> first | rfl | exact fun _ c h => c.mark _ _ _ h | exact touch_fields s i w

theorem Goes.modEngine {s : State} {f : Engine → Engine} (h : (f s.engine).service = s.engine.service)
    (k : (f s.engine).server = s.engine.server) : Goes s (s.modEngine f) := by
  constructor <;> first | rfl | exact h | exact k | exact fun _ _ h => h | exact fun _ _ => rfl

theorem Goes.requestWalk (s : State) (r : WalkRequest) : Goes s (s.requestWalk r).2 := by
  unfold State.requestWalk
  split
  · constructor <;> first | rfl | exact fun _ _ h => h | exact fun _ _ => rfl
  · exact Goes.refl s

/-- A lookup marks at most a way and asks at most the walker (R40, R44). -/
theorem Goes.translate (s : State) (d : DomainId) (v : VAddr) (a : MemAccess) : Goes s (s.translate d v a).2 := by
  unfold State.translate
  simp only
  split
  · exact Goes.requestWalk s _
  · split
    · split
      · exact Goes.touch s _ _
      · split
        · exact Goes.touch s _ _
        · exact (Goes.touch s _ _).trans (Goes.requestWalk _ _)
    · exact Goes.touch s _ _

/-! ### What an action can come to -/

/-- The action goes on, or its service ends READY or WAIT_REQ, or the channel faults, or U's run stops. -/
inductive Acts (s : State) : State → Prop
  | goes {t} : Goes s t → Acts s t
  | ends {u} (c : ChannelId) (st : ChannelState) : Goes s u → s.engine.server = .channel c →
      st = .ready ∨ st = .waitReq → Acts s (u.endService c st)
  | faults {u} (c : ChannelId) (k : FaultKind) (a : FaultAccess) (addr : BitVec 22) : Goes s u →
      s.engine.server = .channel c → Acts s ((u.takeFault c (u.faultRecord c k a addr)).freeEngine)
  | holds {u} (f : UrgentFault) : Goes s u → s.engine.server = .urgent → Acts s (u.enterHold f)

theorem Acts.after {s t u : State} (h : Goes s t) (k : Acts t u) : Acts s u := by
  cases k with
  | goes k => exact .goes (h.trans k)
  | ends c st k e hst => exact .ends c st (h.trans k) (h.server ▸ e) hst
  | faults c f a addr k e => exact .faults c f a addr (h.trans k) (h.server ▸ e)
  | holds f k e => exact .holds f (h.trans k) (h.server ▸ e)

theorem Acts.failAction (s : State) (k : FaultKind) (a : FaultAccess) (addr : BitVec 22) :
    Acts s (s.failAction k a addr) := by
  unfold State.failAction
  split
  · exact .faults _ k a addr (Goes.refl s) (by assumption)
  · exact .holds _ (Goes.refl s) (by assumption)

theorem Acts.declineAction (s : State) : Acts s s.declineAction := by
  unfold State.declineAction
  split
  · exact .ends _ .ready (Goes.refl s) (by assumption) (.inl rfl)
  · exact .goes (Goes.refl s)

theorem Acts.fetchAnswer (s : State) (a : Answer) : Acts s (s.fetchAnswer a) := by
  cases a with
  | translated p => exact .goes (Goes.handOver s _ _)
  | fault k => exact Acts.failAction s _ _ _
  | declined => exact Acts.declineAction s
  | waiting => exact .goes (Goes.refl s)

theorem Acts.writebackAnswer (s : State) (a : Answer) : Acts s (s.writebackAnswer a) := by
  cases a with
  | translated p => exact .goes (Goes.handOver s _ _)
  | fault k => exact Acts.failAction s _ _ _
  | declined => exact Acts.declineAction s
  | waiting => exact .goes (Goes.refl s)

theorem Acts.fetchNext (s : State) : Acts s s.fetchNext := by
  unfold State.fetchNext
  split
  · exact (Acts.fetchAnswer _ _).after (Goes.translate s _ _ _)
  · exact .goes (Goes.handOver s _ _)

theorem Acts.fetchBegin (s : State) (w : Server) : Acts (s.startService w .fetch) (s.fetchBegin w) := by
  unfold State.fetchBegin
  simp only
  split
  · exact Acts.fetchNext _
  · exact Acts.failAction _ _ _ _

theorem Acts.writebackBegin (s : State) (w : Server) : Acts (s.startService w .writeback) (s.writebackBegin w) := by
  unfold State.writebackBegin
  split
  · exact (Acts.writebackAnswer _ _).after (Goes.translate _ _ _ _)
  · exact .goes (Goes.handOver _ _ _)

theorem Goes.issueWrite (s : State) : Goes s s.issueWrite :=
  (Goes.modEngine (s := s) rfl rfl).trans (Goes.handOver _ _ _)

theorem Goes.issueAccesses (s : State) : Goes s s.issueAccesses := by
  unfold State.issueAccesses
  simp only
  split
  · exact (Goes.modEngine (s := s) rfl rfl).trans (Goes.issueWrite _)
  · exact (Goes.modEngine (s := s) rfl rfl).trans (Goes.handOver _ _ _)
  · exact (Goes.modEngine (s := s) rfl rfl).trans (Goes.handOver _ _ _)
  · exact (Goes.modEngine (s := s) rfl rfl).trans (Goes.handOver _ _ _)

theorem Acts.writeSideAnswer (s : State) (a : Answer) : Acts s (s.writeSideAnswer a) := by
  cases a with
  | translated p => exact .goes ((Goes.modEngine (s := s) rfl rfl).trans (Goes.issueAccesses _))
  | fault k => exact Acts.failAction s _ _ _
  | declined => exact Acts.declineAction s
  | waiting => exact .goes (Goes.refl s)

theorem Acts.checkWriteSide (s : State) : Acts s s.checkWriteSide :=
  (Acts.writeSideAnswer _ _).after (Goes.translate s _ _ _)

theorem Acts.checkWritePort (s : State) : Acts s s.checkWritePort := by
  unfold State.checkWritePort
  simp only
  split
  · exact .goes (Goes.issueAccesses s)
  · exact Acts.failAction s _ _ _

theorem Acts.readSideAnswer (s : State) (a : Answer) : Acts s (s.readSideAnswer a) := by
  cases a with
  | translated p =>
    unfold State.readSideAnswer
    simp only
    split
    · exact (Acts.checkWritePort _).after (Goes.modEngine (s := s) rfl rfl)
    · exact (Acts.checkWriteSide _).after (Goes.modEngine (s := s) rfl rfl)
    · exact (Acts.checkWriteSide _).after (Goes.modEngine (s := s) rfl rfl)
    · exact (Acts.checkWriteSide _).after (Goes.modEngine (s := s) rfl rfl)
  | fault k => exact Acts.failAction s _ _ _
  | declined => exact Acts.declineAction s
  | waiting => exact .goes (Goes.refl s)

theorem Acts.checkBeat (s : State) : Acts s s.checkBeat := by
  unfold State.checkBeat
  simp only
  split
  · exact (Acts.readSideAnswer _ _).after (Goes.translate s _ _ _)
  · exact (Acts.readSideAnswer _ _).after (Goes.translate s _ _ _)
  · split
    · exact Acts.checkWriteSide s
    · exact Acts.failAction s _ _ _
  · exact Acts.checkWriteSide s

theorem Acts.beginBeat (s : State) : Acts s s.beginBeat := by
  unfold State.beginBeat
  simp only
  split
  · exact (Acts.checkBeat _).after (Goes.modEngine (s := s) rfl rfl)
  · exact .goes (((Goes.modEngine (s := s) rfl rfl).trans (Goes.modEngine rfl rfl)).trans (Goes.issueAccesses _))

/-- The decision before a beat of a channel: with no beat left its phase becomes WRITEBACK and the service ends; otherwise the
action goes on or ends (R108). -/
theorem nextBeat_channel (s : State) (c : ChannelId) (h : s.engine.server = .channel c) :
    (s.channels[c].remaining = 0 ∧ s.nextBeat =
      (s.modChannel c (fun x => { x with phase := .writeback, code := .complete })).endService c .ready)
    ∨ (s.channels[c].remaining ≠ 0 ∧ Acts s s.nextBeat) := by
  unfold State.nextBeat
  rw [h]
  simp only
  split
  · exact .inl ⟨by assumption, rfl⟩
  · refine .inr ⟨by assumption, ?_⟩
    split
    · exact .ends c .ready (Goes.refl s) h (.inl rfl)
    · split
      · exact .ends c .ready (Goes.refl s) h (.inl rfl)
      · split
        · exact .ends c .ready (Goes.refl s) h (.inl rfl)
        · split
          · exact .ends c .waitReq (Goes.refl s) h (.inr rfl)
          · exact Acts.beginBeat s

/-- U's decision before a beat: with no beat left its writeback begins (R118, R146). -/
theorem nextBeat_urgent (s : State) (h : s.engine.server = .urgent) :
    (s.urgent.u.remaining = 0 ∧
      Acts ((s.modU (fun x => { x with phase := .writeback, code := .complete })).startService .urgent .writeback)
        s.nextBeat)
    ∨ (s.urgent.u.remaining ≠ 0 ∧ Acts s s.nextBeat) := by
  unfold State.nextBeat
  rw [h]
  simp only
  split
  · exact .inl ⟨by assumption, Acts.writebackBegin _ _⟩
  · exact .inr ⟨by assumption, Acts.beginBeat s⟩

/-- The Engine goes on with an answer of the walker's (R27, R28, R36). -/
theorem Acts.engineAnswer (s : State) (a : Answer) : Acts s (s.engineAnswer a) := by
  unfold State.engineAnswer
  split
  · exact .goes (Goes.refl s)
  · exact Acts.fetchAnswer s a
  · exact Acts.writebackAnswer s a
  · split
    · split
      · exact Acts.readSideAnswer s a
      · exact Acts.writeSideAnswer s a
    · split
      · exact Acts.readSideAnswer s a
      · exact Acts.writeSideAnswer s a
    · exact Acts.writeSideAnswer s a
    · exact Acts.writeSideAnswer s a

end Sys2Proof.Machine
end

