-- ==== Sys2Proof/Laws/Moves.lean ====
section
/-! SUPPORT. What a command can do to the channels, the fault queue, the Engine's service and the mode, said once: a property
that survives each of the moves below survives every command. -/

namespace Sys2Proof.Machine

/-- The property survives every move that a command makes on the channels, the queue, the Engine's service and server, and the
mode, entry step and latch; all else is of no matter to it. -/
structure Kept (P : State → Prop) : Prop where
  same : ∀ {s t : State}, P s → t.channels = s.channels → t.queue = s.queue → t.engine.service = s.engine.service →
    t.engine.server = s.engine.server → t.urgent.mode = s.urgent.mode → t.urgent.step = s.urgent.step →
    t.urgent.latch = s.urgent.latch → P t
  /-- CH_START (R88). -/
  start : ∀ {s : State} (c : ChannelId) (d : DomainId) (l : Option (Fin 8)) (a : Args), P s →
    s.channels[c].state = .idle ∨ s.channels[c].state = .done → P (s.setChannel c (s.channels[c].start d l a))
  /-- CH_HALT (R89). -/
  halt : ∀ {s : State} (c : ChannelId), P s → s.channels[c].state = .ready ∨ s.channels[c].state = .waitReq →
    P (s.setChannel c { s.channels[c] with state := .halted })
  /-- CH_HALT and CH_ABORT of an ACTIVE channel (R89, R93). -/
  pend : ∀ {s : State} (c : ChannelId) (h a : Bool), P s → s.channels[c].state = .active →
    P (s.setChannel c { s.channels[c] with pendingHalt := h, pendingAbort := a })
  /-- CH_CONTINUE (R90). -/
  continue_ : ∀ {s : State} (c : ChannelId), P s → s.channels[c].state = .halted ∨ s.channels[c].state = .faulted →
    P (s.setChannel c { s.channels[c] with state := .ready })
  /-- CH_SKIP in MOVE (R92). -/
  skip : ∀ {s : State} (c : ChannelId), P s → s.channels[c].state = .halted ∨ s.channels[c].state = .faulted →
    P (s.setChannel c { s.channels[c] with phase := .writeback, code := .skipped, state := .ready })
  /-- CH_SKIP in WRITEBACK (R92). -/
  skipAdvance : ∀ {s : State} (c : ChannelId), P s → s.channels[c].state = .halted ∨ s.channels[c].state = .faulted →
    P (s.setChannel c s.channels[c].advance)
  /-- CH_ABORT (R93). -/
  abort : ∀ {s : State} (c : ChannelId), P s → s.channels[c].state ≠ .idle → s.channels[c].state ≠ .active →
    P (s.setChannel c s.channels[c].abort)
  /-- FQ_POP (R127). -/
  pop : ∀ {s : State}, P s → s.queue ≠ [] → P s.popFault
  /-- LOCK_CLEAR (R167). -/
  sweep : ∀ {s : State}, P s → s.urgent.mode = .locked →
    P { s.mapChannels (fun _ x => x.sweep) with urgent := { s.urgent with mode := .normal } }
  /-- A pacing line rises (R85). -/
  wake : ∀ {s : State} (lines : BitVec 8), P s → s.urgent.mode = .normal → P (s.mapChannels (fun _ x => x.wake lines))
  /-- A grant (R103, R107). -/
  grant : ∀ {s : State} (c : ChannelId) (v : Service), P s → s.urgent.mode = .normal → s.engine.service = .none →
    s.channels[c].state = .ready → v ≠ .none → (v = .move → s.channels[c].remaining ≠ 0) →
    P ((s.setChannel c { s.channels[c] with state := .active }).startService (.channel c) v)
  /-- A grant of a move service with no beat to make (R108). -/
  grantDone : ∀ {s : State} (c : ChannelId), P s → s.urgent.mode = .normal → s.engine.service = .none →
    s.channels[c].state = .ready →
    P (((s.setChannel c { s.channels[c] with phase := .writeback, code := .complete }).endService c .ready))
  /-- A service ends (R82, R95). -/
  ends : ∀ {s : State} (c : ChannelId) (st : ChannelState), P s → s.engine.service ≠ .none →
    s.engine.server = .channel c → st = .ready ∨ st = .waitReq → P (s.endService c st)
  /-- A channel faults (R114). -/
  faults : ∀ {s : State} (c : ChannelId) (r : FaultRecord), P s → s.engine.service ≠ .none →
    s.engine.server = .channel c → P ((s.takeFault c r).freeEngine)
  /-- U's run stops (R149). -/
  holds : ∀ {s : State} (f : UrgentFault), P s → s.engine.service ≠ .none → s.engine.server = .urgent →
    P (s.enterHold f)
  /-- A descriptor is loaded (R67). -/
  load : ∀ {s : State} (c : ChannelId) (d : Descriptor), P s → s.engine.service ≠ .none →
    s.engine.server = .channel c → d.formatOk (.channel c) = true →
    P ((s.setChannel c (s.channels[c].load d)).endService c .ready)
  /-- A beat has completed and others are left (R113). -/
  beat : ∀ {s : State} (c : ChannelId), P s → s.engine.service = .move → s.engine.server = .channel c →
    s.channels[c].remaining - 1 ≠ 0 →
    P (s.setChannel c { s.channels[c] with
      remaining := s.channels[c].remaining - 1, source := s.channels[c].element.advance.source,
      dest := s.channels[c].element.advance.dest })
  /-- The last beat has completed (R113, R108). -/
  lastBeat : ∀ {s : State} (c : ChannelId), P s → s.engine.service = .move → s.engine.server = .channel c →
    s.channels[c].remaining - 1 = 0 →
    P ((s.setChannel c { s.channels[c] with
      remaining := s.channels[c].remaining - 1, source := s.channels[c].element.advance.source,
      dest := s.channels[c].element.advance.dest, phase := .writeback, code := .complete }).endService c .ready)
  /-- The status byte is written (R72). -/
  advance : ∀ {s : State} (c : ChannelId), P s → s.engine.service ≠ .none → s.engine.server = .channel c →
    P ((s.setChannel c s.channels[c].advance).endService c
      (if isEnd s.channels[c].control then .done else .ready))
  /-- U goes from a service to the next (R146). -/
  serveUrgent : ∀ {s : State} (v : Service), P s → s.engine.service ≠ .none → s.engine.server = .urgent → v ≠ .none →
    P (s.startService .urgent v)
  /-- The run begins (R145, R148, R152). -/
  run : ∀ {s : State} (l : Option Source), P s → l = s.urgent.latch ∨ l = none →
    s.urgent.mode = .urgentHold ∨ (s.urgent.mode = .urgentEntry ∧ s.urgent.step = .save)
      ∨ (s.engine.service ≠ .none ∧ s.engine.server = .urgent) →
    P ({ s with urgent := { s.urgent with mode := .urgentRun, latch := l } }.startService .urgent .fetch)
  /-- The restore begins (R148, R152). -/
  restore : ∀ {s : State}, P s →
    s.urgent.mode = .urgentHold ∨ (s.engine.service ≠ .none ∧ s.engine.server = .urgent) →
    P ({ s with urgent := { s.urgent with mode := .urgentRestore } }.freeEngine)
  /-- An urgent request in NORMAL (R139). -/
  entry : ∀ {s : State}, P s → s.urgent.mode = .normal →
    P { s with urgent := { s.urgent with mode := .urgentEntry, step := .drain } }
  /-- An urgent request in the urgent modes (R139). -/
  latch : ∀ {s : State} (src : Source), P s →
    s.urgent.mode = .urgentEntry ∨ s.urgent.mode = .urgentRun ∨ s.urgent.mode = .urgentHold
      ∨ s.urgent.mode = .urgentRestore →
    P { s with urgent := { s.urgent with latch := some src } }
  /-- The save begins (R140). -/
  save : ∀ {s : State}, P s → s.urgent.mode = .urgentEntry → s.engine.service = .none →
    P { s with urgent := { s.urgent with step := .save } }
  /-- The part locks (R144, R158, R159). -/
  lock : ∀ {s : State}, P s →
    s.urgent.mode = .urgentRestore ∨ (s.urgent.mode = .urgentEntry ∧ s.urgent.step = .save) →
    P { s with urgent := { s.urgent with mode := .locked, latch := none } }
  /-- The image is loaded and the mode becomes NORMAL (R163, R165). -/
  restored : ∀ {s : State}, P s → s.urgent.mode = .urgentRestore → s.imageFault = none → s.urgent.latch = none →
    P { s.loadImage with urgent := { s.urgent with mode := .normal } }
  /-- The image is loaded and the mode becomes URGENT_ENTRY (R163, R165). -/
  entered : ∀ {s : State}, P s → s.urgent.mode = .urgentRestore → s.imageFault = none →
    P { s.loadImage with urgent := { s.urgent with mode := .urgentEntry, step := .drain, latch := none } }
  /-- A reset (R100, R119, R135, R136). -/
  reset : ∀ {s : State}, s.channels = Vector.replicate 8 Channel.reset → s.queue = [] → s.engine.service = .none →
    s.urgent.mode = .normal → s.urgent.latch = none → P s

end Sys2Proof.Machine
end

