-- ==== Sys2Proof/Laws/Numbers.lean ====
section
/-! SUPPORT. The fields of addresses, arguments and control bytes, read as numbers. -/

namespace Sys2Proof.Machine

/-- Two bit vectors put together, as a number. -/
theorem append_toNat {n m : Nat} (a : BitVec n) (b : BitVec m) : (a ++ b).toNat = a.toNat * 2 ^ m + b.toNat := by
  rw [BitVec.toNat_append, Nat.shiftLeft_eq, Nat.mul_comm, ← Nat.two_pow_add_eq_or_of_lt b.isLt]

/-- A field of a bit vector, as a number. -/
theorem field_toNat {n : Nat} (a : BitVec n) (k m : Nat) : (a.extractLsb' k m).toNat = a.toNat / 2 ^ k % 2 ^ m := by
  rw [BitVec.extractLsb'_toNat, Nat.shiftRight_eq_div_pow]

/-! ### Addresses (R17 to R19) -/

theorem dirEntryAddr_toNat (b : BitVec 17) (v : VAddr) :
    (dirEntryAddr b v).toNat = b.toNat * 128 + 4 * (v.toNat / 131072) := by
  have hv := v.isLt
  unfold dirEntryAddr
  rw [append_toNat, append_toNat, field_toNat]
  show (b.toNat * 2 ^ 5 + v.toNat / 2 ^ 17 % 2 ^ 5) * 2 ^ 2 + 0 = _
  omega

theorem dirEntryAddr_second_toNat (b : BitVec 17) (v : VAddr) :
    (dirEntryAddr b v + 2).toNat = b.toNat * 128 + 4 * (v.toNat / 131072) + 2 := by
  have h := dirEntryAddr_toNat b v
  have hv := v.isLt
  have hb := b.isLt
  rw [BitVec.toNat_add, h]
  show (_ + 2) % 2 ^ 24 = _
  omega

theorem pageEntryAddr_toNat (b : BitVec 16) (v : VAddr) :
    (pageEntryAddr b v).toNat = b.toNat * 256 + 4 * (v.toNat / 2048 % 64) := by
  unfold pageEntryAddr
  rw [append_toNat, append_toNat, field_toNat]
  show (b.toNat * 2 ^ 6 + v.toNat / 2 ^ 11 % 2 ^ 6) * 2 ^ 2 + 0 = _
  omega

theorem pageEntryAddr_second_toNat (b : BitVec 16) (v : VAddr) :
    (pageEntryAddr b v + 2).toNat = b.toNat * 256 + 4 * (v.toNat / 2048 % 64) + 2 := by
  have h := pageEntryAddr_toNat b v
  have hb := b.isLt
  rw [BitVec.toNat_add, h]
  show (_ + 2) % 2 ^ 24 = _
  omega

/-! ### Command arguments (R10, R46, R55, R86, R87) -/

theorem domain_of_arg {a : Args} {d : DomainId} (h : a.arg0.toNat = d.val) : a.domain = some d := by
  unfold Args.domain
  rw [dif_pos (by rw [h]; exact d.isLt)]
  exact congrArg some (Fin.ext h)

theorem domain_of_large {a : Args} (h : 16 ≤ a.arg0.toNat) : a.domain = none := by
  unfold Args.domain; rw [dif_neg (by omega)]

theorem channel_of_arg {a : Args} {c : ChannelId} (h : a.arg0.toNat = c.val) : a.channel = some c := by
  unfold Args.channel
  rw [dif_pos (by rw [h]; exact c.isLt)]
  exact congrArg some (Fin.ext h)

theorem channel_of_large {a : Args} (h : 8 ≤ a.arg0.toNat) : a.channel = none := by
  unfold Args.channel; rw [dif_neg (by omega)]

theorem vaddr_toNat (a : Args) : a.vaddr.toNat = a.arg2.toNat % 64 * 65536 + a.arg1.toNat := by
  unfold Args.vaddr; rw [append_toNat, field_toNat]; omega

theorem vaddrOk_iff (a : Args) : a.vaddrOk = true ↔ a.arg2.toNat < 64 := by
  have := a.arg2.isLt
  unfold Args.vaddrOk
  rw [beq_iff_eq, ← BitVec.toNat_inj, field_toNat]
  show a.arg2.toNat / 2 ^ 6 % 2 ^ 10 = 0 ↔ _
  omega

theorem startDomain_of_arg {a : Args} {d : DomainId} (h : a.arg1.toNat % 256 = d.val) : a.startDomain = some d := by
  have e : (lowByte a.arg1).toNat = a.arg1.toNat % 256 := by unfold lowByte; rw [field_toNat]; omega
  unfold Args.startDomain
  simp only [e]
  rw [dif_pos (by rw [h]; exact d.isLt)]
  exact congrArg some (Fin.ext h)

theorem startDomain_of_large {a : Args} (h : 16 ≤ a.arg1.toNat % 256) : a.startDomain = none := by
  have e : (lowByte a.arg1).toNat = a.arg1.toNat % 256 := by unfold lowByte; rw [field_toNat]; omega
  unfold Args.startDomain
  simp only [e]
  rw [dif_neg (by omega)]

/-- The line field of a word's bits 15..12 names line `l`. -/
theorem lineOfCode_eq (x : Word) (l : Option (Fin 8))
    (h : x.toNat / 4096 = (match l with | some n => n.val | none => 15)) :
    lineOfCode (x.extractLsb' 12 4) = some l := by
  have e : (x.extractLsb' 12 4).toNat = x.toNat / 4096 := by have := x.isLt; rw [field_toNat]; omega
  unfold lineOfCode
  cases l with
  | some n =>
    simp only at h
    rw [dif_pos (by rw [e, h]; exact n.isLt)]
    exact congrArg (fun k => some (some k)) (Fin.ext (e.trans h))
  | none =>
    simp only at h
    rw [dif_neg (by rw [e, h]; decide), if_pos]
    exact BitVec.eq_of_toNat_eq (e.trans h)

/-- A line field from 8 to 14 names no line. -/
theorem lineOfCode_none (x : Word) (h : 8 ≤ x.toNat / 4096 ∧ x.toNat / 4096 ≠ 15) :
    lineOfCode (x.extractLsb' 12 4) = none := by
  have e : (x.extractLsb' 12 4).toNat = x.toNat / 4096 := by have := x.isLt; rw [field_toNat]; omega
  unfold lineOfCode
  rw [dif_neg (by rw [e]; omega), if_neg]
  intro k
  have := congrArg BitVec.toNat k
  rw [e] at this
  exact h.2 this

/-- Check 5 of R87, in numbers. -/
theorem startOk_iff (a : Args) :
    a.startOk = true ↔
      a.arg1.toNat / 1024 % 4 = 0 ∧ ¬ (8 ≤ a.arg1.toNat / 4096 ∧ a.arg1.toNat / 4096 ≠ 15)
      ∧ 1 ≤ a.arg3.toNat / 256 ∧ a.arg3.toNat / 256 ≤ 16 ∧ a.arg3.toNat / 64 % 4 = 0 ∧ a.arg2.toNat % 16 = 0 := by
  have b : a.startBurst.toNat = a.arg3.toNat / 256 := by
    have := a.arg3.isLt
    unfold Args.startBurst highByte; rw [field_toNat]; omega
  have d : a.startDescriptor.toNat % 16 = a.arg2.toNat % 16 := by
    unfold Args.startDescriptor; rw [append_toNat]; omega
  have l : a.startLine.isSome = true ↔ ¬ (8 ≤ a.arg1.toNat / 4096 ∧ a.arg1.toNat / 4096 ≠ 15) := by
    unfold Args.startLine
    constructor
    · intro h k; rw [lineOfCode_none _ k] at h; cases h
    · intro h
      by_cases k : a.arg1.toNat / 4096 < 8
      · rw [lineOfCode_eq _ (some ⟨_, k⟩) rfl]; rfl
      · rw [lineOfCode_eq _ none (by simp only; omega)]; rfl
  have z1 : (a.arg1.extractLsb' 10 2 == 0) = true ↔ a.arg1.toNat / 1024 % 4 = 0 := by
    rw [beq_iff_eq, ← BitVec.toNat_inj, field_toNat]; exact Iff.rfl
  have z2 : (a.arg3.extractLsb' 6 2 == 0) = true ↔ a.arg3.toNat / 64 % 4 = 0 := by
    rw [beq_iff_eq, ← BitVec.toNat_inj, field_toNat]; exact Iff.rfl
  unfold Args.startOk
  rw [Bool.and_eq_true, Bool.and_eq_true, Bool.and_eq_true, Bool.and_eq_true, Bool.and_eq_true, z1, l, z2]
  simp only [b, d, decide_eq_true_eq, beq_iff_eq]
  tauto

/-! ### The element (R62, R66) -/

/-- The kind, from the control byte as a number. -/
theorem kindOf_eq (c : Byte) :
    kindOf c = if c.toNat % 4 = 0 then .copy else if c.toNat % 4 = 1 then .ingest
      else if c.toNat % 4 = 2 then .emit else .fill := by
  have e : (c.extractLsb' 0 2).toNat = c.toNat % 4 := by rw [field_toNat]; omega
  have h : c.toNat % 4 < 4 := Nat.mod_lt _ (by omega)
  unfold kindOf
  rw [e]
  generalize c.toNat % 4 = k at *
  interval_cases k <;> rfl

/-- A channel's descriptor address, in numbers (R60). -/
theorem descAddrOk_channel_iff (c : ChannelId) (a : Long) :
    descAddrOk (.channel c) a = true ↔ a.toNat % 16 = 0 ∧ a.toNat ≤ 0x3FFFF0 := by
  unfold descAddrOk
  rw [Bool.and_eq_true, beq_iff_eq, decide_eq_true_eq]
  show _ ∧ a.toNat + 15 ≤ 0x3FFFFF ↔ _
  omega

/-- A descriptor address of U, in numbers (R60, R75). -/
theorem descAddrOk_urgent_iff (a : Long) :
    descAddrOk .urgent a = true ↔ a.toNat % 16 = 0 ∧ a.toNat ≤ 0xFFFFF0 := by
  unfold descAddrOk
  rw [Bool.and_eq_true, beq_iff_eq, decide_eq_true_eq]
  show _ ∧ a.toNat + 15 ≤ 0xFFFFFF ↔ _
  omega

/-- A list-base address on a multiple of 16 is a descriptor address of U. -/
theorem descAddrOk_urgent (b : PAddr) (h : b.toNat % 16 = 0) : descAddrOk .urgent (b.setWidth 32) = true := by
  have hb := b.isLt
  have e : (b.setWidth 32).toNat = b.toNat := by rw [BitVec.toNat_setWidth]; omega
  rw [descAddrOk_urgent_iff, e]
  omega

/-- A list-base address on no multiple of 16 is no descriptor address of U. -/
theorem descAddrOk_urgent_false (b : PAddr) (h : b.toNat % 16 ≠ 0) : descAddrOk .urgent (b.setWidth 32) = false := by
  have hb := b.isLt
  have e : (b.setWidth 32).toNat = b.toNat := by rw [BitVec.toNat_setWidth]; omega
  rw [Bool.eq_false_iff, Ne, descAddrOk_urgent_iff, e]
  omega

end Sys2Proof.Machine
end

