-- ==== Sys2Proof/Laws/Commands.lean ====
section
/-! SUPPORT. What the shared operations that a command goes through do: the taking of a command, the end of an access, the end
of a service, a fault, an invalidation, the beginning of the urgent run and of the restore. -/

namespace Sys2Proof.Machine

/-! ### Taking a command -/

theorem unlessReset_running {s t : State} (h : s.Running) : s.unlessReset t = t := by
  unfold State.unlessReset; rw [h]; rfl

theorem unlessReset_held {s t : State} (h : s.pins.rst = true) : s.unlessReset t = s := by
  unfold State.unlessReset; rw [h]; rfl

/-- A command that is taken (R176). -/
theorem command_taken {s : State} (h : s.TakesCommands) (code : Byte) (f : Effect) :
    s.unlessReset (s.command code f) =
      (f s.window.args (s.latch code)).1.setRes (f s.window.args (s.latch code)).2 := by
  obtain ⟨h1, h2, h3⟩ := h
  rw [unlessReset_running h1]
  unfold State.command
  rw [h2, h3, if_neg (by simp)]

/-- A command that is refused (R177). -/
theorem command_refused {s : State} (h : s.Running) (hb : s.window.busy = true ∨ s.window.resetting = true) (code : Byte)
    (f : Effect) : s.unlessReset (s.command code f) = s.refuseWrite := by
  rw [unlessReset_running h]
  unfold State.command
  rw [if_pos hb]

/-- A channel command that is taken for channel `c` (R86). -/
theorem channelCommand_taken {s : State} {c : ChannelId} (h : s.TakesChannel c) (code : Byte)
    (f : ChannelId → Channel → Effect) :
    s.unlessReset (s.command code (onChannel f)) =
      (f c s.channels[c] s.window.args (s.latch code)).1.setRes (f c s.channels[c] s.window.args (s.latch code)).2 := by
  rw [command_taken h.1]
  unfold onChannel
  rw [if_neg (show ¬ (s.latch code).urgent.mode ≠ .normal from fun k => k h.2.1), channel_of_arg h.2.2]
  rfl

/-! ### Ends of accesses, services and actions -/

/-- With no walk due, the SBI settles alone. -/
theorem settleBus_noWalk {s : State} (h : s.walkDue = false) : s.settleBus = { s with sbi := s.sbi.settle } := by
  unfold State.settleBus
  rw [if_neg (by simp [h])]

/-- A free Engine waits for no walk. -/
theorem settleBus_free {s : State} (h : s.engine.service = .none) : s.settleBus = { s with sbi := s.sbi.settle } :=
  settleBus_noWalk (by simp [State.walkDue, h])

/-- Outside NORMAL no walk starts (R36). -/
theorem settleBus_mode {s : State} (h : s.urgent.mode ≠ .normal) : s.settleBus = { s with sbi := s.sbi.settle } :=
  settleBus_noWalk (by simp [State.walkDue, h])

/-- A walk in progress is not one to start (R33). -/
theorem settleBus_busy {s : State} (h : s.walker.state ≠ .idle) : s.settleBus = { s with sbi := s.sbi.settle } :=
  settleBus_noWalk (by simp [State.walkDue, Walker.busy, h])

/-- A service that waits for no walk. -/
theorem settleBus_unasked {s : State} (h : s.walker.engineWaiting = none) :
    s.settleBus = { s with sbi := s.sbi.settle } :=
  settleBus_noWalk (by simp [State.walkDue, h])

/-- With an access pending, the SBI settles (R173). -/
theorem settleBus_pending {s : State} (h : s.sbi.anyPending = true) :
    s.settleBus = { s with sbi := s.sbi.settle } := by
  unfold State.settleBus
  rw [if_neg (by simp [h])]

theorem handOver_anyPending (b : Sbi) (r : Slot) (a : Access) : (b.handOver r a).anyPending = true := by
  unfold Sbi.handOver Sbi.anyPending Sbi.next Sbi.setSlot
  by_cases h : b.tenure = .idle <;> cases r <;> cases b.walker <;> cases b.engine <;> simp [h]

/-- A requester that hands over an access leaves it pending, so the SBI settles (R169, R173). -/
theorem settleBus_handOver (s : State) (r : Slot) (a : Access) :
    (s.handOver r a).settleBus = { s with sbi := (s.sbi.handOver r a).settle } :=
  settleBus_pending (handOver_anyPending _ _ _)

/-- An access of slot `r` in flight ends, and no engine reset is in progress (R172). -/
theorem accessEnd_carried {s : State} {r : Slot} {a : Access} (h : s.Carrying r a) {on : Bool} (hon : on = true)
    (act : State → Access → State) :
    s.unlessReset (s.accessEnd r on act) =
      (act { s with sbi := s.sbi.ended } a).settleBus := by
  obtain ⟨h1, h2, h3⟩ := h
  rw [unlessReset_running h1]
  unfold State.accessEnd Sbi.carries
  rw [h3, hon, h2]
  simp only [if_pos]
  rfl

/-- An access of slot `r` in flight ends while an engine reset is in progress: the reset ends, and no requester acts (R174). -/
theorem accessEnd_resetting {s : State} {r : Slot} {a : Access} (h1 : s.Running) (h2 : s.window.resetting = true)
    (h3 : s.sbi.inFlight = some (r, a)) {on : Bool} (hon : on = true) (act : State → Access → State) :
    s.unlessReset (s.accessEnd r on act) = s.completeEngineReset := by
  rw [unlessReset_running h1]
  unfold State.accessEnd Sbi.carries
  rw [h3, hon, h2]
  simp only [if_pos]

theorem leave_noPending {x : Channel} {st : ChannelState} (h1 : x.pendingHalt = false) (h2 : x.pendingAbort = false) :
    x.leave st = { x with state := st } := by
  unfold Channel.leave
  simp only [h1, h2, Bool.false_eq_true, if_false, false_and]

/-- A service that ends with no pending flag (R82). -/
theorem endService_noPending {s : State} {c : ChannelId} {st : ChannelState} (h : s.NoPending c) :
    s.endService c st =
      { s with channels := s.channels.set c { s.channels[c] with state := st }, engine := Engine.free } := by
  unfold State.endService State.modChannel State.setChannel State.freeEngine
  simp only [leave_noPending h.1 h.2]

/-- What a service leaves of a context (R95). -/
theorem leave_eq (x : Channel) (st : ChannelState) : x.leave st = x.afterService st := by
  unfold Channel.leave Channel.afterService Channel.abort
  by_cases ha : x.pendingAbort = true
  · simp only [if_pos ha]
  · simp only [if_neg ha]
    by_cases hh : x.pendingHalt = true ∧ (st = .ready ∨ st = .waitReq)
    · rw [if_pos hh, if_pos hh]
    · rw [if_neg hh, if_neg hh]

/-- A service that ends (R82, R95). -/
theorem endService_eq (s : State) (c : ChannelId) (st : ChannelState) :
    s.endService c st =
      { s with channels := s.channels.set c (s.channels[c].afterService st), engine := Engine.free } := by
  rw [← leave_eq]
  rfl

/-- A fault of a channel, with its pending flags (R96, R123, R124). -/
theorem takeFault_reported {s u : State} {c : ChannelId} {r : FaultRecord} (hq : u.queue = s.queue)
    (hc : u.channels = s.channels) : Reported s (u.takeFault c r) c r := by
  have e : u.channels[c] = s.channels[c] := by simp only [hc]
  have cap : Config.queueCapacity = 12 := rfl
  unfold Reported State.takeFault
  simp only [e, hq, cap]
  by_cases h : s.queue.length < 12 <;> by_cases a : s.channels[c].pendingAbort = true <;>
    simp only [h, a, if_true, if_false, State.setChannel_channels, hc] <;> exact ⟨trivial, rfl⟩

theorem failAction_channel {s : State} {c : ChannelId} (h : s.engine.server = .channel c) (k : FaultKind) (a : FaultAccess)
    (addr : BitVec 22) : s.failAction k a addr = (s.takeFault c (s.faultRecord c k a addr)).freeEngine := by
  unfold State.failAction; rw [h]

theorem failAction_urgent {s : State} (h : s.engine.server = .urgent) (k : FaultKind) (a : FaultAccess)
    (addr : BitVec 22) : s.failAction k a addr = s.enterHold (urgentFaultOf k) := by
  unfold State.failAction; rw [h]

/-! ### Invalidation and done flags -/

/-- The stale mark of an invalidation (R51). -/
theorem markStale_eq (s : State) (m : WalkRequest → Bool) :
    s.markStale m = { s with
      walker := { s.walker with stale := s.walker.stale || (s.walker.state != .idle && m s.walker.request) } } := by
  unfold State.markStale
  split
  · rename_i h
    have b : (s.walker.stale || (s.walker.state != .idle && m s.walker.request)) = true := by
      unfold Walker.busy at h; simp only [h, Bool.or_true]
    rw [b]
  · rename_i h
    have b : (s.walker.state != .idle && m s.walker.request) = false := by
      unfold Walker.busy at h; simpa using h
    rw [b, Bool.or_false]

theorem doneFlag_clearDone (s : State) (c n : ChannelId) :
    (s.clearDone (doneMask c)).doneFlag n = (s.doneFlag n && n != c) := by
  unfold State.clearDone State.doneFlag doneMask
  simp only [BitVec.getLsbD_and]
  congr 1
  revert c n; decide

theorem getLsbD_or_doneMask (done : BitVec 8) (c n : ChannelId) :
    (done ||| doneMask c).getLsbD n.val = (done.getLsbD n.val || n == c) := by
  unfold doneMask
  rw [BitVec.getLsbD_or]
  congr 1
  revert c n; decide

/-! ### The urgent run and the restore -/

/-- The run begins at a list base on a multiple of 16 (R145). -/
theorem startRun_eq (s : State) (h : s.urgent.listBase.toNat % 16 = 0) :
    s.startRun = { s with
      engine := { Engine.free with service := .fetch, server := .urgent }
      sbi := s.sbi.handOver .engine (readWord s.urgent.listBase)
      urgent := { s.urgent with
        mode := .urgentRun, fault := .none
        u := { UContext.reset with position := s.urgent.listBase.setWidth 32 } } } := by
  have e : physicalOf (s.urgent.listBase.setWidth 32) + BitVec.ofNat 24 (2 * 0) = s.urgent.listBase := by
    have := s.urgent.listBase.isLt
    unfold physicalOf
    apply BitVec.eq_of_toNat_eq
    rw [BitVec.toNat_add, field_toNat, BitVec.toNat_setWidth]
    show (_ + 0) % 2 ^ 24 = _
    omega
  unfold State.startRun State.fetchBegin
  simp only []
  rw [if_pos (by exact descAddrOk_urgent _ h)]
  unfold State.fetchNext
  show State.handOver _ _ (readWord (physicalOf (s.urgent.listBase.setWidth 32) + BitVec.ofNat 24 (2 * 0))) = _
  rw [e]
  rfl

/-- At a position that fails the check U's run stops before any access (R60, R149). -/
theorem fetchBegin_urgent_bad (s : State) (h : descAddrOk .urgent s.urgent.u.position = false) :
    s.fetchBegin .urgent = { s with
      engine := Engine.free
      urgent := { s.urgent with mode := .urgentHold, fault := .descFormat }
      window := { s.window with urgentCause := true } } := by
  unfold State.fetchBegin
  simp only []
  rw [if_neg (by exact Bool.eq_false_iff.mp h)]
  rfl

/-- At a list base on no multiple of 16 the run stops as it begins (R60, R145, R149). -/
theorem startRun_bad (s : State) (h : s.urgent.listBase.toNat % 16 ≠ 0) :
    s.startRun = { s with
      engine := Engine.free
      urgent := { s.urgent with
        mode := .urgentHold, fault := .descFormat
        u := { UContext.reset with position := s.urgent.listBase.setWidth 32 } }
      window := { s.window with urgentCause := true } } := by
  unfold State.startRun
  rw [fetchBegin_urgent_bad _ (by exact descAddrOk_urgent_false _ h)]

/-- The restore begins (R157). -/
theorem beginRestore_eq (s : State) :
    s.beginRestore = { s with
      engine := Engine.free
      sbi := s.sbi.handOver .urgent (readWord s.urgent.saveBase)
      urgent := { s.urgent with mode := .urgentRestore, image := [], readProgress := 0 } } := by
  unfold State.beginRestore State.imageAddr
  show State.handOver _ _ (readWord (s.urgent.saveBase + BitVec.ofNat 24 (2 * 0))) = _
  rw [show s.urgent.saveBase + BitVec.ofNat 24 (2 * 0) = s.urgent.saveBase by simp]
  rfl

/-- An image has 144 words (R142). -/
theorem imageWords_length (s : State) : s.imageWords.length = 144 := by
  unfold State.imageWords headerOf allChannels Channel.record wordsOfLong
  simp

end Sys2Proof.Machine
end

