-- ==== Sys2Proof/Laws/Beats.lean ====
section
/-! SUPPORT. What a lookup of a channel's action and the checks of its beat come to, said once for the services that a grant
begins, the beat after another, and the beat that a walk's answer lets go on. -/

namespace Sys2Proof.Machine

/-- The kind of an element's control, by its number. -/
theorem kindOf_nat (b : Byte) : kindOf b =
    if b.toNat % 4 = 0 then .copy else if b.toNat % 4 = 1 then .ingest else if b.toNat % 4 = 2 then .emit else .fill := by
  revert b; decide

/-- The element in hand of the channel served. -/
theorem element_served {s : State} {c : ChannelId} (h : s.engine.server = .channel c) :
    s.element = s.channels[c].element := by
  unfold State.element; rw [h]

/-- The domain of the channel served. -/
theorem servedDomain_served {s : State} {c : ChannelId} (h : s.engine.server = .channel c) :
    s.servedDomain = s.channels[c].domain := by
  unfold State.servedDomain; rw [h]

/-- The grant check of an access, as its two bits (R4). -/
theorem accessGranted_iff (s : State) (d : DomainId) (b : Byte) (p : Port) :
    s.accessGranted d (widthOf b) p = true ↔ s.PortsGranted d (if b.getLsbD 2 = true then .word else .byte) p := by
  unfold State.accessGranted widthOf State.PortsGranted
  cases b.getLsbD 2 <;> simp

/-- The end of a step: one that has ended an access lets the SBI go on; a grant does not. -/
def State.finish (s : State) (ends : Bool) : State := if ends = true then s.settleBus else s

/-- With an access handed over. -/
theorem finish_handOver (s : State) (r : Slot) (a : Access) (ends : Bool) :
    (s.handOver r a).finish ends = { s with sbi := (s.sbi.handOver r a).goesOn ends } := by
  cases ends
  · rfl
  · exact settleBus_handOver s r a

/-- With the Engine free. -/
theorem finish_free {s : State} (h : s.engine.service = .none) (ends : Bool) :
    s.finish ends = { s with sbi := s.sbi.goesOn ends } := by
  cases ends
  · rfl
  · exact settleBus_free h

/-- With a walk of the Engine's service due in NORMAL (R34, R170). -/
theorem finish_asked {s : State} (hv : s.engine.service ≠ .none) (hw : s.walker.engineWaiting.isSome = true)
    (hm : s.urgent.mode = .normal) (hr : s.window.resetting = false) (ends : Bool) :
    s.finish ends = { s with sbi :=
      if s.walker.state = .idle ∧ s.sbi.granted = true ∧ s.sbi.anyPending = false then s.sbi else s.sbi.goesOn ends } := by
  cases ends
  · show s = { s with sbi := if _ then s.sbi else s.sbi }
    rw [ite_self]
  · show s.settleBus = _
    unfold State.settleBus State.walkDue Walker.busy
    simp only [hm, hr, hw]
    by_cases h : s.walker.state = .idle ∧ s.sbi.granted = true ∧ s.sbi.anyPending = false
    · rw [if_pos h, if_pos (by simp [hv, h])]
    · rw [if_neg h, if_neg (by intro hh; apply h; simpa [hv] using hh)]
      rfl

/-- A check of the channel served that fails (R114). -/
theorem failAction_checkFails {g : State} {c : ChannelId} (hs : g.engine.server = .channel c) (ends : Bool) (k : FaultKind)
    (a : FaultAccess) (addr : BitVec 22) : CheckFails (.next ((g.failAction k a addr).finish ends)) ends g c k a addr := by
  rw [failAction_channel hs, finish_free rfl]
  exact ⟨_, rfl, takeFault_reported rfl rfl, rfl⟩

/-- A request for the channel served, and what its action makes of the answer (R34, R36, R117). -/
theorem requestWalk_asks {g : State} {c : ChannelId} {K : State → Answer → State} (hs : g.engine.server = .channel c)
    (hv : g.engine.service ≠ .none) (hr : g.window.resetting = false) (hw : ∀ s, K s .waiting = s)
    (hd : ∀ s, K s .declined = s.declineAction) (ends : Bool) (v : VAddr) (a : MemAccess) :
    AsksWalker (.next ((K (g.requestWalk { domain := g.channels[c].domain, vaddr := v, access := a }).2
      (g.requestWalk { domain := g.channels[c].domain, vaddr := v, access := a }).1).finish ends)) ends g c v a := by
  unfold State.requestWalk
  refine ⟨fun hm => ?_, fun hm => ?_⟩
  · rw [if_pos hm, hw]
    let asked : WalkRequest := { domain := g.channels[c].domain, vaddr := v, access := a }
    exact congrArg Host.Outcome.next
      (finish_asked (s := { g with walker := { g.walker with engineWaiting := some asked } }) hv rfl hm hr ends)
  · rw [if_neg hm, hd]
    unfold State.declineAction
    rw [hs]
    simp only
    rw [endService_eq, finish_free rfl]

/-- The lookup of an action of the channel served, which makes `K` of the answer (R30, R40 to R42). -/
theorem translate_lookedUp {g : State} {c : ChannelId} {K : State → Answer → State} (hs : g.engine.server = .channel c)
    (hv : g.engine.service ≠ .none) (hr : g.window.resetting = false) (hw : ∀ s, K s .waiting = s)
    (hd : ∀ s, K s .declined = s.declineAction) {ends : Bool} {v : VAddr} {a : MemAccess} {f : FaultAccess}
    {goes : State → PAddr → Prop} {o : Host.Outcome State Fault Refusal}
    (hf : ∀ i w, K (g.touch i w) (.fault .writeDenied) = (g.touch i w).failAction .writeDenied f v)
    (hgo : ∀ i w q, o = .next ((K (g.touch i w) (.translated q)).finish ends) → goes (g.touch i w) q)
    (ho : o = .next ((K (g.translate g.channels[c].domain v a).2 (g.translate g.channels[c].domain v a).1).finish ends)) :
    LookedUp o ends g c v a f goes := by
  have hwr : a.writes = true ↔ (a = .write ∨ a = .writeback) := by cases a <;> simp [MemAccess.writes]
  unfold State.translate at ho
  refine ⟨fun h => ?_, fun w h => ⟨fun h1 => hgo _ _ _ ?_, fun h1 h2 => ?_, fun h1 h2 h3 => ?_⟩⟩
  · simp only [h] at ho
    rw [ho]
    exact requestWalk_asks hs hv hr hw hd ends v a
  · simp only [h] at ho
    by_cases hc : a.writes = true
    · obtain ⟨h2, h3⟩ := h1 (hwr.1 hc)
      rw [if_pos hc, h2] at ho
      simp only [Bool.not_true, Bool.false_eq_true, if_false] at ho
      rw [if_pos (by rcases h3 with h3 | h3 <;> rw [h3] <;> simp only [Bool.true_or, Bool.not_false, Bool.or_true])] at ho
      exact ho
    · rw [if_neg hc] at ho
      exact ho
  · simp only [h] at ho
    rw [if_pos (hwr.2 h1), h2] at ho
    simp only [Bool.not_false, if_true] at ho
    rw [ho, hf]
    exact failAction_checkFails (g := g.touch _ w) hs _ _ _ _
  · obtain ⟨h3, h4⟩ := not_or.1 h3
    rw [Bool.not_eq_true] at h3
    rw [Bool.not_eq_false] at h4
    simp only [h] at ho
    rw [if_pos (hwr.2 h1), h2, h3, h4] at ho
    simp only [Bool.not_true, Bool.or_self, Bool.false_eq_true, if_false] at ho
    rw [ho]
    exact requestWalk_asks (g := g.touch _ w) hs hv hr hw hd ends v a

/-- A FILL's pattern (R63). -/
theorem pattern_eq (e : Element) : e.pattern = fillPattern e := by
  unfold Element.pattern widthOf fillPattern
  by_cases h : e.control.getLsbD 2 = true
  · simp only [if_pos h]; rfl
  · simp only [if_neg h]
    generalize e.source = x
    congr 1
    apply BitVec.eq_of_getLsbD_eq
    intro i hi
    simp only [lowByte, lowWord, BitVec.getLsbD_extractLsb']
    simp [hi, show i < 16 by omega]

/-- The first access of a beat whose checks have all passed (R112). -/
theorem issueAccesses_first {g : State} {c : ChannelId} (hs : g.engine.server = .channel c) (ends : Bool) :
    FirstAccessIssued (.next (g.issueAccesses.finish ends)) ends g c := by
  unfold State.issueAccesses
  simp only [element_served hs]
  refine ⟨fun p hk hp' => ?_, fun hk => ?_, fun p hk hp' => ?_⟩
  · have : kindOf g.channels[c].element.control = .copy ∨ kindOf g.channels[c].element.control = .emit := by
      show kindOf g.channels[c].control = _ ∨ kindOf g.channels[c].control = _
      rw [kindOf_nat]; rcases hk with h | h <;> rw [h] <;> simp
    rcases this with h | h <;>
    · simp only [h]
      rw [finish_handOver]
      simp only [State.modEngine, hp']
      rfl
  · have : kindOf g.channels[c].element.control = .ingest := by
      show kindOf g.channels[c].control = _
      rw [kindOf_nat, hk]; simp
    simp only [this]
    rw [finish_handOver]
    rfl
  · have : kindOf g.channels[c].element.control = .fill := by
      show kindOf g.channels[c].control = _
      rw [kindOf_nat, hk]; simp
    simp only [this]
    unfold State.issueWrite
    have he : (g.modEngine (fun x => { x with datum := some g.channels[c].element.pattern })).element
        = g.channels[c].element := element_served (s := { g with engine := _ }) hs
    simp only [he, this]
    rw [finish_handOver]
    simp only [State.modEngine, hp', pattern_eq]
    rfl

/-- The lookup of a memory write side and what follows it (R42, R110). -/
theorem checkWriteSide_lookedUp {g : State} {c : ChannelId} (hs : g.engine.server = .channel c)
    (hv : g.engine.service ≠ .none) (hr : g.window.resetting = false) (ends : Bool) :
    WriteSideLookedUp (.next (g.checkWriteSide.finish ends)) ends g c := by
  refine translate_lookedUp (K := State.writeSideAnswer) hs hv hr (fun _ => rfl) (fun _ => rfl) (fun i w => ?_)
    (fun i w q ho => ?_) ?_
  · unfold State.writeSideAnswer
    rw [element_served (s := g.touch i w) hs]
    rfl
  · rw [ho]
    exact issueAccesses_first (g := (g.touch i w).modEngine _) (by exact hs) ends
  · unfold State.checkWriteSide
    rw [servedDomain_served hs, element_served hs]
    rfl

/-- The read side of a COPY or EMIT answered with a translation (R109). -/
theorem readSide_answered {g : State} {c : ChannelId} (hs : g.engine.server = .channel c)
    (hv : g.engine.service ≠ .none) (hr : g.window.resetting = false) (ends : Bool) (p : PAddr) :
    ReadSideAnswered (.next ((g.readSideAnswer (.translated p)).finish ends)) ends
      { g with engine := { g.engine with readAt := some p } } c := by
  let h : State := { g with engine := { g.engine with readAt := some p } }
  have hh : h.engine.server = .channel c := hs
  unfold State.readSideAnswer
  simp only
  have he : (g.modEngine (fun x => { x with readAt := some p })).element = g.channels[c].element :=
    element_served (s := h) hh
  simp only [he]
  refine ⟨fun hk => ?_, fun hk => ?_⟩
  · have : kindOf g.channels[c].element.control = .copy := by
      show kindOf g.channels[c].control = _
      rw [kindOf_nat, if_pos (by exact hk)]
    simp only [this]
    exact checkWriteSide_lookedUp hh hv hr ends
  · have : kindOf g.channels[c].element.control = .emit := by
      show kindOf g.channels[c].control = _
      rw [kindOf_nat, show g.channels[c].control.toNat % 4 = 2 from hk]; simp
    simp only [this]
    change (_ → FirstAccessIssued (.next (h.checkWritePort.finish ends)) ends h c)
      ∧ (_ → CheckFails (.next (h.checkWritePort.finish ends)) ends h c _ _ _)
    unfold State.checkWritePort
    simp only [servedDomain_served hh, element_served hh]
    refine ⟨fun hg => ?_, fun hg => ?_⟩
    · rw [if_pos (by exact (accessGranted_iff h _ _ _).2 hg)]
      exact issueAccesses_first hh ends
    · rw [if_neg (by exact fun x => hg ((accessGranted_iff h _ _ _).1 x))]
      exact failAction_checkFails hh _ _ _ _

/-- The checks of a channel's beat (R109 to R111). -/
theorem checkBeat_checked {g : State} {c : ChannelId} (hs : g.engine.server = .channel c)
    (hv : g.engine.service ≠ .none) (hr : g.window.resetting = false) (ends : Bool) :
    BeatChecked (.next (g.checkBeat.finish ends)) ends g c := by
  refine ⟨fun hk => ?_, fun hk => ?_, fun hk => ?_⟩
  · have : kindOf g.channels[c].element.control = .copy ∨ kindOf g.channels[c].element.control = .emit := by
      show kindOf g.channels[c].control = _ ∨ kindOf g.channels[c].control = _
      rw [kindOf_nat]; rcases hk with h | h <;> rw [h] <;> simp
    refine translate_lookedUp (K := State.readSideAnswer) hs hv hr (fun _ => rfl) (fun _ => rfl) (fun i w => ?_)
      (fun i w q ho => ?_) ?_
    · unfold State.readSideAnswer
      rw [element_served (s := g.touch i w) hs]
      rfl
    · rw [ho]
      exact readSide_answered (g := g.touch i w) hs hv hr ends q
    · unfold State.checkBeat
      simp only [servedDomain_served hs, element_served hs]
      rcases this with hq | hq <;> rw [hq] <;> rfl
  · have : kindOf g.channels[c].element.control = .ingest := by
      show kindOf g.channels[c].control = _
      rw [kindOf_nat, hk]; simp
    unfold State.checkBeat
    simp only [servedDomain_served hs, element_served hs, this]
    refine ⟨fun hg => ?_, fun hg => ?_⟩
    · rw [if_pos (by exact (accessGranted_iff g _ _ _).2 hg)]
      exact checkWriteSide_lookedUp hs hv hr ends
    · rw [if_neg (by exact fun x => hg ((accessGranted_iff g _ _ _).1 x))]
      exact failAction_checkFails hs _ _ _ _
  · have : kindOf g.channels[c].element.control = .fill := by
      show kindOf g.channels[c].control = _
      rw [kindOf_nat, hk]; simp
    unfold State.checkBeat
    simp only [element_served hs, this]
    exact checkWriteSide_lookedUp hs hv hr ends

/-- A walk's translation reaches the read side of a COPY or EMIT that has none yet (R109). -/
theorem engineAnswer_readSide {g : State} {c : ChannelId} (hs : g.engine.server = .channel c)
    (hv : g.engine.service = .move) (hr : g.window.resetting = false)
    (hk : g.channels[c].control.toNat % 4 = 0 ∨ g.channels[c].control.toNat % 4 = 2) (ha : g.engine.readAt = none)
    (p : PAddr) : ReadSideAnswered (.next (g.engineAnswer (.translated p)).settleBus) true
      { g with engine := { g.engine with readAt := some p } } c := by
  have : kindOf g.channels[c].element.control = .copy ∨ kindOf g.channels[c].element.control = .emit := by
    show kindOf g.channels[c].control = _ ∨ kindOf g.channels[c].control = _
    rw [kindOf_nat]; rcases hk with h | h <;> rw [h] <;> simp
  have key : g.engineAnswer (.translated p) = g.readSideAnswer (.translated p) := by
    unfold State.engineAnswer
    simp only [hv, element_served hs]
    rcases this with h | h <;>
    · simp only [h, if_pos ha]
  rw [key]
  exact readSide_answered hs (by rw [hv]; decide) hr true p

/-- A walk's translation reaches the write side of a COPY, INGEST or FILL (R109, R112). -/
theorem engineAnswer_writeSide {g : State} {c : ChannelId} (hs : g.engine.server = .channel c)
    (hv : g.engine.service = .move)
    (hk : (g.channels[c].control.toNat % 4 = 0 ∧ g.engine.readAt ≠ none) ∨ g.channels[c].control.toNat % 4 = 1
      ∨ g.channels[c].control.toNat % 4 = 3)
    (p : PAddr) : FirstAccessIssued (.next (g.engineAnswer (.translated p)).settleBus) true
      { g with engine := { g.engine with writeAt := some p } } c := by
  have key : g.engineAnswer (.translated p) = State.issueAccesses (g.modEngine (fun x => { x with writeAt := some p })) := by
    have hq : kindOf g.channels[c].element.control = kindOf g.channels[c].control := rfl
    unfold State.engineAnswer
    simp only [hv, element_served hs, hq]
    rw [kindOf_nat]
    rcases hk with ⟨h, ha⟩ | h | h <;> rw [h]
    · simp only [if_true, if_neg ha]; rfl
    · rfl
    · rfl
  rw [key]
  exact issueAccesses_first (g := g.modEngine _) (by exact hs) true

/-! ### The urgent channel's beat -/

/-- A beat of U begins without a check: its first access is issued at its own addresses (R75, R112, R118). -/
theorem beginBeat_urgent {g : State} (hs : g.engine.server = .urgent) : g.beginBeat = { g with
    engine := urgentBeatEngine g.engine g.urgent.u.element
    sbi := g.sbi.handOver .engine (urgentBeatAccess g.urgent.u.element) } := by
  have he : ∀ t : State, t.engine.server = .urgent → t.urgent = g.urgent → t.element = g.urgent.u.element := by
    intro t h1 h2; unfold State.element; rw [h1, h2]
  unfold State.beginBeat
  have hs' : (g.modEngine (fun x => { x with stage := .check, readAt := none, writeAt := none, datum := none })
    ).engine.server = .urgent := hs
  simp only [hs']
  unfold State.issueAccesses
  rw [he _ hs' rfl, he _ (by exact hs) (by rfl)]
  generalize hq : g.urgent.u.element = e
  have h4 : e.control.toNat % 4 < 4 := Nat.mod_lt _ (by omega)
  unfold urgentBeatAccess urgentBeatEngine
  simp only [kindOf_nat, ← pattern_eq]
  generalize hk : e.control.toNat % 4 = k at *
  interval_cases k
  · rfl
  · rfl
  · rfl
  · simp only [OfNat.ofNat_ne_zero, OfNat.ofNat_ne_one, Nat.reduceEqDiff, if_false, if_true]
    unfold State.issueWrite
    rw [he _ (by exact hs) (by rfl), hq]
    simp only [kindOf_nat, hk]
    rfl

end Sys2Proof.Machine
end

