-- ==== Sys2Proof/Laws/Confinement.lean ====
section
/-! SUPPORT. The engine part of `ConfinementLaw` (laws 2 and 8): an operation of the Engine that begins with
nothing outstanding ends with an access whose ports are granted, with a walk in the served domain, or with nothing
outstanding. -/

namespace Sys2Proof.Machine

/-! ### The parts of the law -/

/-- What the engine part of the law says. -/
def EngOk (s : State) : Prop := PortLaw s ∧ OutstandingLaw s ∧ PromiseLaw s

/-- What the table part of the law says. -/
def TabOk (s : State) : Prop := OpenTagsLaw s ∧ BoundLaw s

/-- Nothing of the Engine is outstanding. -/
structure Quiet (s : State) : Prop where
  access : s.engineAccess = none
  walk : s.engineWalk = none
  walker1 : ∀ a, s.sbi.inFlight = some (.walker, a) → s.sbi.walker = none
  walker2 : (∃ a, s.sbi.inFlight = some (.walker, a)) ∨ s.sbi.walker ≠ none → s.walker.state ≠ .idle

/-- No access of the Engine is in flight. -/
theorem Quiet.inFlight {s} (q : Quiet s) (a) : s.sbi.inFlight ≠ some (.engine, a) := by
  intro h; have := q.access; unfold State.engineAccess at this; rw [h] at this; cases this

/-- The ENGINE slot is empty. -/
theorem Quiet.slot {s} (q : Quiet s) : s.sbi.engine = none := by
  have := q.access; unfold State.engineAccess at this
  split at this
  · cases this
  · exact this

/-- No walk of the Engine waits or is in progress. -/
theorem Quiet.waiting {s} (q : Quiet s) :
    s.walker.engineWaiting = none ∧ ¬ (s.walker.state ≠ .idle ∧ s.walker.requester = .engine) := by
  have := q.walk; unfold State.engineWalk at this
  split at this
  · cases this
  · exact ⟨this, by assumption⟩

/-- A quiet state meets the engine part of the laws. -/
theorem Quiet.ok {s} (q : Quiet s) : EngOk s := by
  refine ⟨?_, ⟨fun _ => q.access, fun a h => absurd h (q.inFlight a), q.walker1, q.walker2, fun _ _ => q.waiting.1,
    fun r h => ?_⟩, ?_⟩
  · intro c a _ h; rw [q.access] at h; cases h
  · rw [q.walk] at h; cases h
  · intro c _ _
    exact ⟨fun _ h => absurd q.walk h, fun _ h => absurd q.walk h, fun _ _ h => absurd q.access h⟩

/-- A quiet state stays so when the SBI and the walker's part stand. -/
theorem Quiet.same {s t} (q : Quiet s) (h1 : t.sbi = s.sbi) (h2 : t.walker = s.walker) : Quiet t := by
  obtain ⟨a, b, c, d⟩ := q
  refine ⟨?_, ?_, ?_, ?_⟩
  · unfold State.engineAccess at *; rw [h1]; exact a
  · unfold State.engineWalk at *; rw [h2]; exact b
  · rw [h1]; exact c
  · rw [h1, h2]; exact d

/-- In no service the Engine has nothing outstanding. -/
theorem EngOk.quiet {s} (k : EngOk s) (h : s.engine.service = .none) : Quiet s := by
  obtain ⟨-, ⟨h1, h2, h3, h4, h5, h6⟩, -⟩ := k
  refine ⟨h1 h, ?_, h3, h4⟩
  cases hw : s.engineWalk with
  | none => rfl
  | some r => exact absurd h (h6 r hw).2.1

/-- What the laws of the engine part look at. -/
structure Same (s t : State) : Prop where
  engine : t.engine = s.engine
  access : t.engineAccess = s.engineAccess
  sbi1 : ∀ a, t.sbi.inFlight = some (.engine, a) → t.sbi.engine = none
  sbi2 : ∀ a, t.sbi.inFlight = some (.walker, a) → t.sbi.walker = none
  sbi3 : (∃ a, t.sbi.inFlight = some (.walker, a)) ∨ t.sbi.walker ≠ none → t.walker.state ≠ .idle
  walk : t.engineWalk = s.engineWalk
  walk2 : t.walker.state ≠ .idle → t.walker.requester = .engine → t.walker.engineWaiting = none
  chan : ∀ c : ChannelId, s.engine.server = .channel c → s.engine.service ≠ .none →
    t.channels[c].domain = s.channels[c].domain ∧ t.channels[c].control = s.channels[c].control
    ∧ t.channels[c].source = s.channels[c].source ∧ t.channels[c].dest = s.channels[c].dest
    ∧ ∀ p, t.portGranted s.channels[c].domain p = s.portGranted s.channels[c].domain p

/-- What the engine part looks at is the same: it is kept. -/
theorem Same.ok {s t} (h : Same s t) (k : EngOk s) : EngOk t := by
  obtain ⟨k1, ⟨k2, k3, k4, k5, k6, k7⟩, k8⟩ := k
  have hs : ∀ a, s.engineAccess = some a → s.engine.service ≠ .none := by
    intro a ha hn; rw [k2 hn] at ha; cases ha
  have hg : ∀ c : ChannelId, s.engine.server = .channel c → s.engine.service ≠ .none → ∀ w p,
    (t.PortsGranted t.channels[c].domain w p ↔ s.PortsGranted s.channels[c].domain w p) := by
    intro c h1 h2 w p
    obtain ⟨c1, -, -, -, c5⟩ := h.chan c h1 h2
    unfold State.PortsGranted; rw [c1, c5, c5]
  refine ⟨?_, ⟨?_, h.sbi1, h.sbi2, h.sbi3, h.walk2, ?_⟩, ?_⟩
  · intro c a h1 h2 h3
    rw [h.engine] at h1; rw [h.access] at h2
    exact (hg c h1 (hs a h2) _ _).2 (k1 c a h1 h2 h3)
  · rw [h.engine, h.access]; exact k2
  · intro r hr
    rw [h.walk] at hr
    obtain ⟨r1, r2, c, r3, r4⟩ := k7 r hr
    rw [h.access, h.engine]
    exact ⟨r1, r2, c, r3, by rw [(h.chan c r3 r2).1]; exact r4⟩
  · intro c h1 h2
    rw [h.engine] at h1 h2
    have hn : s.engine.service ≠ .none := by rw [h1]; decide
    obtain ⟨c1, c2, c3, c4, c5⟩ := h.chan c h2 hn
    have := k8 c h1 h2
    simp only at this ⊢
    rw [c2, c3, c4, h.walk, h.engine, h.access]
    exact ⟨fun a b => (hg c h2 hn _ _).2 (this.1 a b), this.2.1, fun a b d => (hg c h2 hn _ _).2 (this.2.2 a b d)⟩

/-- A step that leaves the Engine, the SBI, the walker's requests and the served channel. -/
theorem Same.of {s t : State} (k : EngOk s) (h1 : t.engine = s.engine) (h2 : t.sbi = s.sbi)
    (h3 : t.walker.state = s.walker.state)
    (h4 : t.walker.requester = s.walker.requester) (h5 : t.walker.request = s.walker.request)
      (h6 : t.walker.engineWaiting = s.walker.engineWaiting)
    (h7 : ∀ c : ChannelId, s.engine.server = .channel c → s.engine.service ≠ .none →
      t.channels[c].domain = s.channels[c].domain ∧ t.channels[c].control = s.channels[c].control
      ∧ t.channels[c].source = s.channels[c].source ∧ t.channels[c].dest = s.channels[c].dest)
    (h8 : ∀ c : ChannelId, s.engine.server = .channel c → s.engine.service ≠ .none → ∀ p,
      t.portGranted s.channels[c].domain p = s.portGranted s.channels[c].domain p) : EngOk t := by
  obtain ⟨-, ⟨-, k3, k4, k5, k6, -⟩, -⟩ := id k
  refine Same.ok ?_ k
  refine ⟨h1, ?_, ?_, ?_, ?_, ?_, ?_, fun c a b => ?_⟩
  · unfold State.engineAccess; rw [h2]
  · rw [h2]; exact k3
  · rw [h2]; exact k4
  · rw [h2, h3]; exact k5
  · unfold State.engineWalk; rw [h3, h4, h5, h6]
  · rw [h3, h4, h6]; exact k6
  · obtain ⟨a1, a2, a3, a4⟩ := h7 c a b; exact ⟨a1, a2, a3, a4, h8 c a b⟩

/-- The fields that the engine part reads are the same. -/
theorem EngOk.same {s t : State} (k : EngOk s) (h1 : t.engine = s.engine := by rfl) (h2 : t.sbi = s.sbi := by rfl)
    (h3 : t.walker.state = s.walker.state := by rfl)
    (h4 : t.walker.requester = s.walker.requester := by rfl) (h5 : t.walker.request = s.walker.request := by rfl)
    (h6 : t.walker.engineWaiting = s.walker.engineWaiting := by rfl)
    (h7 : t.channels = s.channels := by rfl) (h8 : t.grants = s.grants := by rfl) : EngOk t := by
  refine Same.of k h1 h2 h3 h4 h5 h6 (fun c _ _ => ?_) (fun c _ _ p => ?_)
  · rw [h7]; exact ⟨rfl, rfl, rfl, rfl⟩
  · unfold State.portGranted; rw [h8]

/-- The SBI moves its accesses on. -/
theorem EngOk.sbi {s : State} (k : EngOk s) (b : Sbi)
    (h1 : ({ s with sbi := b } : State).engineAccess = s.engineAccess)
    (h2 : ∀ a, b.inFlight = some (.engine, a) → b.engine = none)
    (h3 : ∀ a, b.inFlight = some (.walker, a) → b.walker = none)
    (h4 : (∃ a, b.inFlight = some (.walker, a)) ∨ b.walker ≠ none →
      (∃ a, s.sbi.inFlight = some (.walker, a)) ∨ s.sbi.walker ≠ none) : EngOk { s with sbi := b } :=
  Same.ok (s := s) ⟨rfl, h1, h2, h3, fun h => k.2.1.2.2.2.1 (h4 h), rfl, k.2.1.2.2.2.2.1,
    fun _ _ _ => ⟨rfl, rfl, rfl, rfl, fun _ => rfl⟩⟩ k

/-- The bus moves on without changing who has an access. -/
theorem EngOk.settle {s : State} (k : EngOk s) : EngOk { s with sbi := s.sbi.settle } := by
  have h2 := k.2.1.2.1; have h3 := k.2.1.2.2.1
  unfold Sbi.settle
  split
  · rename_i ho
    split
    · split
      · unfold Sbi.begin
        split
        · rename_i r a hn
          unfold Sbi.next at hn
          have h0 : s.engineAccess = s.sbi.engine := by unfold State.engineAccess; rw [ho.2]
          split at hn
          · injection hn with hn; injection hn with e1 e2; subst e1; subst e2
            refine k.sbi _ ?_ ?_ ?_ ?_
            · rw [h0]; rfl
            · intro a h; cases h
            · intro a h; rfl
            · intro _; right; rename_i hh _ _; simp_all
          · injection hn with hn; injection hn with e1 e2; subst e1; subst e2
            refine k.sbi _ ?_ ?_ ?_ ?_
            · rw [h0]; rename_i hh; unfold State.engineAccess; simp; simp_all
            · intro a h; rfl
            · intro a h; cases h
            · rintro (⟨a, h⟩ | h)
              · cases h
              · exact .inr h
          · injection hn with hn; injection hn with e1 e2; subst e1; subst e2
            refine k.sbi _ ?_ ?_ ?_ ?_
            · rw [h0]; rfl
            · intro a h; cases h
            · intro a h; cases h
            · rintro (⟨a, h⟩ | h)
              · cases h
              · exact .inr h
          · cases hn
        · exact k.sbi _ rfl h2 h3 (fun h => h)
      · exact k.sbi _ rfl h2 h3 (fun h => h)
    · exact k.sbi _ rfl h2 h3 (fun h => h)
  · exact k.sbi _ rfl h2 h3 (fun h => h)

/-- The same of an access's end. -/
theorem EngOk.settleBus {s : State} (k : EngOk s) : EngOk s.settleBus := by
  unfold State.settleBus; split
  · exact k
  · exact k.settle

/-- A quiet Engine hands over an access whose ports are granted. -/
theorem Quiet.handOver {s t : State} (q : Quiet s) {a : Access} (h1 : t.sbi = s.sbi.handOver .engine a)
    (h2 : t.walker = s.walker)
    (h3 : t.engine.service ≠ .none)
    (h4 : ∀ c : ChannelId, t.engine.server = .channel c → a.space = .port →
      t.PortsGranted t.channels[c].domain a.width (a.address.extractLsb' 0 8))
    (h5 : ∀ c : ChannelId, t.engine.service = .move → t.engine.server = .channel c →
      t.channels[c].control.toNat % 4 = 2 → t.engine.stage = .read →
      t.PortsGranted t.channels[c].domain (if t.channels[c].control.getLsbD 2 = true then .word else .byte)
        (t.channels[c].dest.extractLsb' 0 8)) : EngOk t := by
  have b1 : t.sbi.inFlight = s.sbi.inFlight ∧ t.sbi.engine = some a ∧ t.sbi.walker = s.sbi.walker := by
    rw [h1]; unfold Sbi.handOver Sbi.setSlot; simp only; split <;> exact ⟨rfl, rfl, rfl⟩
  have b2 : t.engineAccess = some a := by
    unfold State.engineAccess; rw [b1.1, b1.2.1]
    have := q.inFlight
    split
    · rename_i x hx; exact absurd hx (this x)
    · rfl
  have b3 : t.engineWalk = none := by unfold State.engineWalk; rw [h2]; exact q.walk
  refine ⟨?_, ⟨fun h => absurd h h3, ?_, ?_, ?_, ?_, fun r h => ?_⟩, ?_⟩
  · intro c x k1 k2 k3
    rw [b2] at k2; injection k2 with k2; subst k2
    exact h4 c k1 k3
  · intro x h; rw [b1.1] at h; exact absurd h (q.inFlight x)
  · intro x h; rw [b1.1] at h; rw [b1.2.2]; exact q.walker1 x h
  · rw [b1.1, b1.2.2, h2]; exact q.walker2
  · intro _ _; rw [h2]; exact q.waiting.1
  · rw [b3] at h; cases h
  · intro c k1 k2
    exact ⟨fun _ h => absurd b3 h, fun _ h => absurd b3 h, fun k3 k4 _ => h5 c k1 k2 k3 k4⟩

/-- A quiet Engine asks for a walk in the domain of the channel it serves. -/
theorem Quiet.asks {s t : State} (q : Quiet s) {r : WalkRequest} {c : ChannelId} (h1 : t.sbi = s.sbi)
    (h2 : t.walker = { s.walker with engineWaiting := some r })
    (h3 : t.engine.service ≠ .none) (h4 : t.engine.server = .channel c) (h5 : r.domain = t.channels[c].domain)
    (h6 : t.engine.service = .move → t.channels[c].control.toNat % 4 = 1 →
      t.PortsGranted t.channels[c].domain (if t.channels[c].control.getLsbD 2 = true then .word else .byte)
        (t.channels[c].source.extractLsb' 0 8))
    (h7 : t.engine.service = .move → t.channels[c].control.toNat % 4 = 2 → t.engine.readAt = none) : EngOk t := by
  have b1 : t.engineAccess = none := by unfold State.engineAccess; rw [h1]; exact q.access
  have b2 : t.engineWalk = some r := by
    unfold State.engineWalk; rw [h2]; rw [if_neg (by exact q.waiting.2)]
  refine ⟨?_, ⟨fun _ => b1, ?_, ?_, ?_, ?_, fun r' h => ?_⟩, ?_⟩
  · intro c x k1 k2; rw [b1] at k2; cases k2
  · intro x h; rw [h1] at h; exact absurd h (q.inFlight x)
  · rw [h1]; exact q.walker1
  · rw [h1, h2]; exact q.walker2
  · intro k1 k2; rw [h2] at k1 k2; exact absurd ⟨k1, k2⟩ q.waiting.2
  · rw [b2] at h; injection h with h; subst h
    exact ⟨b1, h3, c, h4, h5⟩
  · intro c' k1 k2
    rw [h4] at k2; injection k2 with k2; subst k2
    exact ⟨fun k3 _ => h6 k1 k3, fun k3 _ => h7 k1 k3, fun _ _ h => absurd b1 h⟩

/-- A lookup has answered and changed the cache alone, or it asks for walk `r`. -/
def Asked (s : State) (r : WalkRequest) (p : Answer × State) : Prop :=
  (p.1 ≠ .waiting ∧ ∃ C, p.2 = { s with cache := C })
  ∨ (p.1 = .waiting ∧ ∃ C, p.2 = { s with cache := C, walker := { s.walker with engineWaiting := some r } })

/-- A lookup answers at once, or asks for a walk. -/
theorem translate_cases (s : State) (d : DomainId) (v : VAddr) (a : MemAccess) :
    Asked s ⟨d, v, a⟩ (s.translate d v a) := by
  have rq : ∀ C, Asked s ⟨d, v, a⟩ (State.requestWalk { s with cache := C } ⟨d, v, a⟩) := by
    intro C
    unfold State.requestWalk
    split
    · exact .inr ⟨rfl, C, rfl⟩
    · exact .inl ⟨by simp, C, rfl⟩
  unfold State.translate
  simp only
  split
  · exact rq s.cache
  · split
    · split
      · exact .inl ⟨by simp, _, rfl⟩
      · split
        · exact .inl ⟨by simp, _, rfl⟩
        · exact rq _
    · exact .inl ⟨by simp, _, rfl⟩

/-- A fault leaves the Engine quiet. -/
theorem Quiet.fail {s : State} (q : Quiet s) (k a addr) : EngOk (s.failAction k a addr) := by
  unfold State.failAction
  split
  · exact Quiet.ok (q.same (by rfl) (by rfl))
  · exact Quiet.ok (q.same (by rfl) (by rfl))

/-- A declined access leaves the Engine quiet. -/
theorem Quiet.decline {s : State} (q : Quiet s) : EngOk s.declineAction := by
  unfold State.declineAction
  split
  · exact Quiet.ok (q.same (by rfl) (by rfl))
  · exact q.ok

/-- The end of a service leaves the Engine quiet. -/
theorem Quiet.endService {s : State} (q : Quiet s) (c st) : EngOk (s.endService c st) :=
  Quiet.ok (q.same (by rfl) (by rfl))

/-- A fetch and a writeback are no move. -/
theorem notMove {v w : Service} {Q : Prop} (h : v = w) (e : v = .move) (hw : w ≠ .move := by decide) : Q :=
  absurd (h.symm.trans e) hw

/-- A fetch goes on with the answer of its lookup. -/
theorem Quiet.fetchAnswer {s : State} (q : Quiet s) (h : s.engine.service = .fetch) (a : Answer) :
    EngOk (s.fetchAnswer a) := by
  cases a with
  | translated p =>
    exact q.handOver rfl rfl (ne_of_eq_of_ne h (by decide)) (fun _ _ h => by cases h) (fun _ => notMove h)
  | fault k => exact q.fail _ _ _
  | declined => exact q.decline
  | waiting => exact q.ok

/-- A writeback goes on with the answer of its lookup. -/
theorem Quiet.writebackAnswer {s : State} (q : Quiet s) (h : s.engine.service = .writeback) (a : Answer) :
    EngOk (s.writebackAnswer a) := by
  cases a with
  | translated p =>
    exact q.handOver rfl rfl (ne_of_eq_of_ne h (by decide)) (fun _ _ h => by cases h) (fun _ => notMove h)
  | fault k => exact q.fail _ _ _
  | declined => exact q.decline
  | waiting => exact q.ok

/-- The domain of a served channel. -/
theorem servedDomain_channel {s : State} {c : ChannelId} (h : s.engine.server = .channel c) :
    s.servedDomain = s.channels[c].domain := by
  unfold State.servedDomain; rw [h]

/-- The element of a served channel. -/
theorem element_channel {s : State} {c : ChannelId} (h : s.engine.server = .channel c) :
    s.element = s.channels[c].element := by
  unfold State.element; rw [h]

/-- The next descriptor word. -/
theorem Quiet.fetchNext {s : State} (q : Quiet s) (h : s.engine.service = .fetch) : EngOk s.fetchNext := by
  unfold State.fetchNext
  split
  · rename_i c hs
    simp only
    rcases translate_cases s s.servedDomain s.fetchVaddr .fetch with ⟨-, C, e⟩ | ⟨e1, C, e⟩
    · rw [e]; exact Quiet.fetchAnswer (s := { s with cache := C }) (q.same (by rfl) (by rfl)) h _
    · rw [e1, e]
      exact q.asks (c := c) rfl rfl (ne_of_eq_of_ne h (by decide)) hs (servedDomain_channel hs) (notMove h)
        (notMove h)
  · exact q.handOver rfl rfl (ne_of_eq_of_ne h (by decide)) (fun _ _ h => by cases h) (fun _ => notMove h)

/-- A fetch begins. -/
theorem Quiet.fetchBegin {s : State} (q : Quiet s) (w) : EngOk (s.fetchBegin w) := by
  unfold State.fetchBegin
  simp only
  split
  · exact Quiet.fetchNext (q.same (by rfl) (by rfl)) rfl
  · exact Quiet.fail (q.same (by rfl) (by rfl)) _ _ _

/-- A writeback begins. -/
theorem Quiet.writebackBegin {s : State} (q : Quiet s) (w) : EngOk (s.writebackBegin w) := by
  unfold State.writebackBegin
  simp only
  split
  · rename_i c
    set u := s.startService (.channel c) .writeback with hu
    have hs : u.engine.server = .channel c := rfl
    have h : u.engine.service = .writeback := rfl
    have qu : Quiet u := q.same (by rfl) (by rfl)
    clear_value u
    rcases translate_cases u u.servedDomain u.statusVaddr .writeback with ⟨-, C, e⟩ | ⟨e1, C, e⟩
    · rw [e]; exact Quiet.writebackAnswer (s := { u with cache := C }) (qu.same (by rfl) (by rfl)) h _
    · rw [e1, e]
      exact qu.asks (c := c) rfl rfl (ne_of_eq_of_ne h (by decide)) hs (servedDomain_channel hs) (notMove h)
        (notMove h)
  · exact q.handOver (t := (s.startService .urgent .writeback).handOver .engine _) rfl rfl
      (by show Service.writeback ≠ .none; decide) (fun _ _ h => by cases h) (fun _ => notMove (v := .writeback) rfl)

/-! ### The beat -/

/-- The kind INGEST is code 1. -/
theorem kindIngest (b : Byte) : kindOf b = .ingest ↔ b.toNat % 4 = 1 := by revert b; decide +kernel

/-- The kind EMIT is code 2. -/
theorem kindEmit (b : Byte) : kindOf b = .emit ↔ b.toNat % 4 = 2 := by revert b; decide +kernel

/-- Another kind is no INGEST. -/
theorem notIngest {b : Byte} {k : Kind} (h : kindOf b = k) (hk : k ≠ .ingest := by decide) : b.toNat % 4 ≠ 1 :=
  fun e => hk (h.symm.trans ((kindIngest b).2 e))

/-- Another kind is no EMIT. -/
theorem notEmit {b : Byte} {k : Kind} (h : kindOf b = k) (hk : k ≠ .emit := by decide) : b.toNat % 4 ≠ 2 :=
  fun e => hk (h.symm.trans ((kindEmit b).2 e))

/-- The grant of an access is the grant of each of its ports. -/
theorem granted_iff (s : State) (d : DomainId) (w : Width)
    (p : Port) : s.accessGranted d w p = true ↔ s.PortsGranted d w p := by
  unfold State.accessGranted State.PortsGranted
  cases w <;> simp

/-- The checks of a beat that have passed: an INGEST's source port, an EMIT's destination port. -/
def SrcOk (s : State) (c : ChannelId) : Prop :=
  s.channels[c].control.toNat % 4 = 1 →
    s.PortsGranted s.channels[c].domain (widthOf s.channels[c].control) (s.channels[c].source.extractLsb' 0 8)

/-- The destination port of an EMIT is granted. -/
def DstOk (s : State) (c : ChannelId) : Prop :=
  s.channels[c].control.toNat % 4 = 2 →
    s.PortsGranted s.channels[c].domain (widthOf s.channels[c].control) (s.channels[c].dest.extractLsb' 0 8)

/-- A port is the low byte of its bus address. -/
theorem portAddr_low (p : Port) : (portAddr p).extractLsb' 0 8 = p := by
  unfold portAddr; apply BitVec.eq_of_toNat_eq; have := p.isLt; simp; omega

/-- The write of a beat. -/
theorem Quiet.issueWrite {s : State} (q : Quiet s) {c : ChannelId} (hs : s.engine.server = .channel c)
    (h : s.engine.service = .move) (hd : DstOk s c) : EngOk s.issueWrite := by
  refine q.handOver (t := s.issueWrite) rfl rfl (ne_of_eq_of_ne h (by decide)) ?_ (fun _ _ _ _ h => by cases h)
  intro c' k1 k2
  have : c' = c := Server.channel.inj (Eq.trans (Eq.symm k1) hs)
  subst this
  rw [element_channel hs] at k2 ⊢
  show s.PortsGranted s.channels[c'].domain _ _
  cases hk : kindOf s.channels[c'].element.control
  all_goals rw [hk] at k2
  case emit => 
    simp only [portAddr_low]
    exact hd ((kindEmit _).1 hk)
  all_goals cases k2

/-- The first access of a beat. -/
theorem Quiet.issueAccesses {s : State} (q : Quiet s) {c : ChannelId} (hs : s.engine.server = .channel c)
    (h : s.engine.service = .move) (hsr : SrcOk s c) (hd : DstOk s c) : EngOk s.issueAccesses := by
  have hc : ∀ c' : ChannelId, s.engine.server = .channel c' → c' = c := fun _ e => Server.channel.inj
    (e.symm.trans hs)
  unfold State.issueAccesses
  simp only
  split
  · exact Quiet.issueWrite (q.same (by rfl) (by rfl)) hs h hd
  · rename_i hk
    rw [element_channel hs] at hk ⊢
    refine q.handOver rfl rfl (ne_of_eq_of_ne h (by decide)) ?_ ?_
    · intro c' k1 k2
      rw [hc c' k1]
      simp only [portAddr_low]
      exact hsr ((kindIngest _).1 hk)
    · intro c' _ k1 k2 _
      rw [hc c' k1] at k2
      exact absurd k2 (notEmit hk)
  all_goals
    refine q.handOver rfl rfl (ne_of_eq_of_ne h (by decide)) (fun _ _ h => by cases h) ?_
    intro c' _ k1 k2 _
    rw [hc c' k1] at k2 ⊢
    exact hd k2

/-- The write side's lookup is answered. -/
theorem Quiet.writeSideAnswer {s : State} (q : Quiet s) {c : ChannelId} (hs : s.engine.server = .channel c)
    (h : s.engine.service = .move) (hsr : SrcOk s c) (hd : DstOk s c) (a : Answer) : EngOk (s.writeSideAnswer a) := by
  cases a with
  | translated p => exact Quiet.issueAccesses (q.same (by rfl) (by rfl)) hs h hsr hd
  | fault k => exact q.fail _ _ _
  | declined => exact q.decline
  | waiting => exact q.ok

/-- The write side is looked up. -/
theorem Quiet.checkWriteSide {s : State} (q : Quiet s) {c : ChannelId} (hs : s.engine.server = .channel c)
    (h : s.engine.service = .move) (hsr : SrcOk s c) (hd : s.channels[c].control.toNat % 4 ≠ 2) :
      EngOk s.checkWriteSide := by
  unfold State.checkWriteSide
  simp only
  rcases translate_cases s s.servedDomain (virtualOf s.element.dest) .write with ⟨-, C, e⟩ | ⟨e1, C, e⟩
  · rw [e]
    exact Quiet.writeSideAnswer (s := { s with cache := C }) (q.same (by rfl) (by rfl)) hs h hsr
      (fun e => absurd e hd) _
  · rw [e1, e]
    exact q.asks (c := c) rfl rfl (ne_of_eq_of_ne h (by decide)) hs (servedDomain_channel hs) (fun _ => hsr)
      (fun _ hh => absurd hh hd)

/-- An EMIT's destination port is checked. -/
theorem Quiet.checkWritePort {s : State} (q : Quiet s) {c : ChannelId} (hs : s.engine.server = .channel c)
    (h : s.engine.service = .move) (he : s.channels[c].control.toNat % 4 = 2) : EngOk s.checkWritePort := by
  unfold State.checkWritePort
  simp only
  split
  · rename_i hg
    rw [element_channel hs, servedDomain_channel hs, granted_iff] at hg
    exact q.issueAccesses hs h (fun hh => by rw [he] at hh; cases hh) (fun _ => hg)
  · exact q.fail _ _ _

/-- The read side's lookup is answered. -/
theorem Quiet.readSideAnswer {s : State} (q : Quiet s) {c : ChannelId} (hs : s.engine.server = .channel c)
    (h : s.engine.service = .move) (hk : s.channels[c].control.toNat % 4 ≠ 1) (a : Answer) : EngOk
      (s.readSideAnswer a) := by
  cases a with
  | translated p =>
    unfold State.readSideAnswer
    simp only
    set u := s.modEngine (fun x => { x with readAt := some p }) with hu
    have e : u.element = s.channels[c].element := element_channel (s := u) hs
    rw [e]
    split
    · rename_i k; exact Quiet.checkWritePort (s := u) (q.same (by rfl) (by rfl)) hs h ((kindEmit _).1 k)
    all_goals
      rename_i k
      exact Quiet.checkWriteSide (s := u) (q.same (by rfl) (by rfl)) hs h (fun hh => absurd hh hk) (notEmit k)
  | fault k => exact q.fail _ _ _
  | declined => exact q.decline
  | waiting => exact q.ok

/-- A beat begins. -/
theorem Quiet.beginBeat {s : State} (q : Quiet s) (h : s.engine.service = .move) : EngOk s.beginBeat := by
  unfold State.beginBeat
  simp only
  set u := s.modEngine (fun x => { x with stage := .check, readAt := none, writeAt := none, datum := none }) with hu
  have qu : Quiet u := q.same (by rfl) (by rfl)
  have hv : u.engine.service = .move := h
  have hr : u.engine.readAt = none := rfl
  clear_value u
  split
  · rename_i c hs
    unfold State.checkBeat
    simp only
    have e := element_channel hs
    rw [e]
    split
    · rename_i k
      rcases translate_cases u u.servedDomain (virtualOf u.channels[c].element.source) .read with ⟨-, C, e⟩ |
        ⟨e1, C, e⟩
      · rw [e]
        exact Quiet.readSideAnswer (s := { u with cache := C }) (qu.same (by rfl) (by rfl)) hs hv (notIngest k) _
      · rw [e1, e]
        exact qu.asks (c := c) rfl rfl (ne_of_eq_of_ne hv (by decide)) hs (servedDomain_channel hs)
          (fun _ hh => absurd hh (notIngest k)) (fun _ _ => hr)
    · rename_i k
      rcases translate_cases u u.servedDomain (virtualOf u.channels[c].element.source) .read with ⟨-, C, e⟩ |
        ⟨e1, C, e⟩
      · rw [e]
        exact Quiet.readSideAnswer (s := { u with cache := C }) (qu.same (by rfl) (by rfl)) hs hv (notIngest k) _
      · rw [e1, e]
        exact qu.asks (c := c) rfl rfl (ne_of_eq_of_ne hv (by decide)) hs (servedDomain_channel hs)
          (fun _ hh => absurd hh (notIngest k)) (fun _ _ => hr)
    · rename_i k
      split
      · rename_i hg
        rw [servedDomain_channel hs, granted_iff] at hg
        exact qu.checkWriteSide hs hv (fun _ => hg) (notEmit k)
      · exact qu.fail _ _ _
    · rename_i k
      exact qu.checkWriteSide hs hv (fun e => absurd e (notIngest k)) (notEmit k)
  · rename_i hs
    -- U
    have nope : ∀ t : State, t.engine.server = .urgent → t.sbi = u.sbi → t.walker = u.walker →
      t.engine.service = .move → EngOk t.issueAccesses := by
      intro t k1 k2 k3 k4
      have no : ∀ c, t.engine.server ≠ .channel c := by intro c hh; rw [k1] at hh; cases hh
      unfold State.issueAccesses
      simp only
      split
      · refine qu.handOver (t := State.issueWrite _) (by show Sbi.handOver t.sbi _ _ = _; rw [k2]) k3
          (ne_of_eq_of_ne k4 (by decide)) (fun c hh => absurd hh (no c)) (fun c _ hh => absurd hh (no c))
      all_goals
        exact qu.handOver (by show Sbi.handOver t.sbi _ _ = _; rw [k2]) k3 (ne_of_eq_of_ne k4 (by decide))
          (fun c hh => absurd hh (no c)) (fun c _ hh => absurd hh (no c))
    exact nope _ hs rfl rfl hv

/-- The service goes on to its next beat, or ends. -/
theorem Quiet.nextBeat {s : State} (q : Quiet s) (h : s.engine.service = .move) : EngOk s.nextBeat := by
  unfold State.nextBeat
  split
  · split
    · exact Quiet.writebackBegin (q.same (by rfl) (by rfl)) _
    · exact q.beginBeat h
  · simp only
    split
    · exact Quiet.endService (q.same (by rfl) (by rfl)) _ _
    · split
      · exact q.endService _ _
      · split
        · exact q.endService _ _
        · split
          · exact q.endService _ _
          · split
            · exact q.endService _ _
            · exact q.beginBeat h

/-- A service begins. -/
theorem Quiet.serviceBegin {s : State} (q : Quiet s) (w ph) : EngOk (s.serviceBegin w ph) := by
  cases ph
  · exact q.fetchBegin w
  · exact Quiet.nextBeat (s := s.startService w .move) (q.same (by rfl) (by rfl)) rfl
  · exact q.writebackBegin w

/-- The walker answers the Engine: the engine part is kept. -/
theorem Quiet.engineAnswer {s : State} (q : Quiet s) {c : ChannelId} (hs : s.engine.server = .channel c)
    (hsr : s.engine.service = .move → SrcOk s c)
    (hr : s.engine.service = .move → s.channels[c].control.toNat % 4 = 2 → s.engine.readAt = none) (a : Answer) :
      EngOk (s.engineAnswer a) := by
  unfold State.engineAnswer
  split
  · exact q.ok
  · exact q.fetchAnswer (by assumption) a
  · exact q.writebackAnswer (by assumption) a
  · rename_i h
    rw [element_channel hs]
    split
    · rename_i k
      have k1 : s.channels[c].control.toNat % 4 ≠ 1 := notIngest k
      split
      · exact q.readSideAnswer hs h k1 a
      · exact q.writeSideAnswer hs h (hsr h) (fun e => absurd e (notEmit k)) a
    · rename_i k
      have k1 : s.channels[c].control.toNat % 4 ≠ 1 := notIngest k
      split
      · exact q.readSideAnswer hs h k1 a
      · rename_i hn; exact absurd (hr h ((kindEmit _).1 k)) hn
    all_goals
      rename_i k
      exact q.writeSideAnswer hs h (hsr h) (fun e => absurd e (notEmit k)) a

end Sys2Proof.Machine
end

