-- ==== Sys2Proof/Laws/PerInstr.lean ====
section
/-! SUPPORT. The family `HostWrite`, row by row: a well-formed row that is a host write is the row which that write spells
(11_register_window_and_command_unit.md). -/

namespace Sys2Proof.Laws.HostWrite

/-- The row is the one which its host write, if it has one, spells. -/
def Statement (i : Instr) : Prop :=
  i.wellFormed = true → ∀ (reg : BitVec 6) (v : Word), i.asWrite = some (reg, v) → rowOfWrite reg v = i

/-- The low byte of a word put together from two bytes. -/
theorem low_of_append (h k : Byte) : (h ++ k : Word).extractLsb' 0 8 = k := by
  apply BitVec.eq_of_toNat_eq
  rw [BitVec.extractLsb'_toNat, BitVec.toNat_append, Nat.shiftLeft_eq, Nat.mul_comm,
    ← Nat.two_pow_add_eq_or_of_lt k.isLt]
  have := k.isLt
  simp only [Nat.shiftRight_zero]; omega

/-- The high byte of a word put together from two bytes. -/
theorem high_of_append (h k : Byte) : (h ++ k : Word).extractLsb' 8 8 = h := by
  apply BitVec.eq_of_toNat_eq
  rw [BitVec.extractLsb'_toNat, BitVec.toNat_append, Nat.shiftLeft_eq, Nat.mul_comm,
    ← Nat.two_pow_add_eq_or_of_lt k.isLt, Nat.shiftRight_eq_div_pow]
  have := k.isLt; have := h.isLt
  omega

/-- A row that is no host write meets the statement. -/
theorem of_none {i : Instr} (h : i.asWrite = none) : Statement i := by
  intro _ reg v hv; rw [h] at hv; cases hv

/-- A row that is one write meets the statement where that write spells it. -/
theorem of_some {i : Instr} {r : BitVec 6} {w : Word} (h : i.asWrite = some (r, w))
    (hw : i.wellFormed = true → rowOfWrite r w = i) : Statement i := by
  intro wf reg v hv
  rw [h] at hv
  injection hv with hv; injection hv with h1 h2
  subst h1; subst h2
  exact hw wf

/-- The code and the ignored byte of a CMD write name its row. -/
theorem command_row (code hi : Byte) : rowOfWrite 0x02#6 (hi ++ code) = rowOfCommand (hi ++ code) := rfl

theorem domOpen (hi : Byte) : Statement (.domOpen hi) :=
  of_some rfl fun _ => by
    rw [command_row, rowOfCommand]; simp only [low_of_append, high_of_append]; rfl
theorem domClose (hi : Byte) : Statement (.domClose hi) :=
  of_some rfl fun _ => by
    rw [command_row, rowOfCommand]; simp only [low_of_append, high_of_append]; rfl
theorem invAll (hi : Byte) : Statement (.invAll hi) :=
  of_some rfl fun _ => by
    rw [command_row, rowOfCommand]; simp only [low_of_append, high_of_append]; rfl
theorem invDomain (hi : Byte) : Statement (.invDomain hi) :=
  of_some rfl fun _ => by
    rw [command_row, rowOfCommand]; simp only [low_of_append, high_of_append]; rfl
theorem invPage (hi : Byte) : Statement (.invPage hi) :=
  of_some rfl fun _ => by
    rw [command_row, rowOfCommand]; simp only [low_of_append, high_of_append]; rfl
theorem probe (hi : Byte) : Statement (.probe hi) :=
  of_some rfl fun _ => by
    rw [command_row, rowOfCommand]; simp only [low_of_append, high_of_append]; rfl
theorem chStart (hi : Byte) : Statement (.chStart hi) :=
  of_some rfl fun _ => by
    rw [command_row, rowOfCommand]; simp only [low_of_append, high_of_append]; rfl
theorem chHalt (hi : Byte) : Statement (.chHalt hi) :=
  of_some rfl fun _ => by
    rw [command_row, rowOfCommand]; simp only [low_of_append, high_of_append]; rfl
theorem chContinue (hi : Byte) : Statement (.chContinue hi) :=
  of_some rfl fun _ => by
    rw [command_row, rowOfCommand]; simp only [low_of_append, high_of_append]; rfl
theorem chSkip (hi : Byte) : Statement (.chSkip hi) :=
  of_some rfl fun _ => by
    rw [command_row, rowOfCommand]; simp only [low_of_append, high_of_append]; rfl
theorem chAbort (hi : Byte) : Statement (.chAbort hi) :=
  of_some rfl fun _ => by
    rw [command_row, rowOfCommand]; simp only [low_of_append, high_of_append]; rfl
theorem fqPop (hi : Byte) : Statement (.fqPop hi) :=
  of_some rfl fun _ => by
    rw [command_row, rowOfCommand]; simp only [low_of_append, high_of_append]; rfl
theorem urgentReq (hi : Byte) : Statement (.urgentReq hi) :=
  of_some rfl fun _ => by
    rw [command_row, rowOfCommand]; simp only [low_of_append, high_of_append]; rfl
theorem resume (hi : Byte) : Statement (.resume hi) :=
  of_some rfl fun _ => by
    rw [command_row, rowOfCommand]; simp only [low_of_append, high_of_append]; rfl
theorem lockClear (hi : Byte) : Statement (.lockClear hi) :=
  of_some rfl fun _ => by
    rw [command_row, rowOfCommand]; simp only [low_of_append, high_of_append]; rfl
theorem unknownCommandCode (v : Word) : Statement (.unknownCommandCode v) :=
  of_some rfl fun wf => by
    show rowOfCommand v = _
    unfold Instr.wellFormed namesCommand at wf
    simp only [Bool.not_eq_true', Bool.and_eq_false_iff, decide_eq_false_iff_not] at wf
    unfold rowOfCommand
    simp only
    split <;> first | rfl | (exfalso; omega)
theorem engineReset : Statement .engineReset := of_some rfl fun _ => rfl
theorem engineResetComplete : Statement .engineResetComplete := of_none rfl
theorem tselWrite (v : Word) : Statement (.tselWrite v) := of_some rfl fun _ => rfl
theorem domainFieldWrite (f : DomainField) (v : Word) : Statement (.domainFieldWrite f v) :=
  of_some rfl fun _ => by cases f <;> rfl
theorem grantWordWrite (v : Word) : Statement (.grantWordWrite v) := of_some rfl fun _ => rfl
theorem cselWrite (v : Word) : Statement (.cselWrite v) := of_some rfl fun _ => rfl
theorem wflgWrite (v : Word) : Statement (.wflgWrite v) := of_some rfl fun _ => rfl
theorem doneFlagClear (v : Word) : Statement (.doneFlagClear v) := of_some rfl fun _ => rfl
theorem icauseWrite (v : Word) : Statement (.icauseWrite v) := of_some rfl fun _ => rfl
theorem ienaWrite (v : Word) : Statement (.ienaWrite v) := of_some rfl fun _ => rfl
theorem saveBaseLowWrite (v : Word) : Statement (.saveBaseLowWrite v) := of_some rfl fun _ => rfl
theorem saveBaseHighWrite (v : Word) : Statement (.saveBaseHighWrite v) := of_some rfl fun _ => rfl
theorem listBaseLowWrite (v : Word) : Statement (.listBaseLowWrite v) := of_some rfl fun _ => rfl
theorem listBaseHighWrite (v : Word) : Statement (.listBaseHighWrite v) := of_some rfl fun _ => rfl
theorem registerWrite (reg : BitVec 6) (v : Word) : Statement (.registerWrite reg v) :=
  of_some rfl fun wf => by
    unfold Instr.wellFormed hasOwnRow at wf
    simp only [List.contains_cons, List.contains_nil, Bool.not_eq_true', Bool.or_eq_false_iff,
      beq_eq_false_iff_ne] at wf
    unfold rowOfWrite
    split <;> first | rfl | simp_all
theorem hardReset : Statement .hardReset := of_none rfl
theorem rstRelease : Statement .rstRelease := of_none rfl
theorem urqRequest : Statement .urqRequest := of_none rfl
theorem urqArm : Statement .urqArm := of_none rfl
theorem lineAsserted (n : Fin 8) : Statement (.lineAsserted n) := of_none rfl
theorem schedulerGrant (preq : BitVec 8) : Statement (.schedulerGrant preq) := of_none rfl
theorem walkStart : Statement .walkStart := of_none rfl
theorem walkAccessEnd (e : BusEnd) : Statement (.walkAccessEnd e) := of_none rfl
theorem fetchReadEnd (e : BusEnd) : Statement (.fetchReadEnd e) := of_none rfl
theorem beatReadEnd (e : BusEnd) : Statement (.beatReadEnd e) := of_none rfl
theorem beatWriteEnd (e : BusEnd) (preq : BitVec 8) : Statement (.beatWriteEnd e preq) := of_none rfl
theorem statusWriteEnd (e : BusEnd) : Statement (.statusWriteEnd e) := of_none rfl
theorem saveBegin : Statement .saveBegin := of_none rfl
theorem saveWriteEnd (e : BusEnd) : Statement (.saveWriteEnd e) := of_none rfl
theorem restoreReadEnd (e : BusEnd) (preq : BitVec 8) : Statement (.restoreReadEnd e preq) := of_none rfl
theorem busGrant : Statement .busGrant := of_none rfl
theorem busGrantDeasserted : Statement .busGrantDeasserted := of_none rfl

end Sys2Proof.Laws.HostWrite
end

