-- ==== Sys2Proof/Laws/Steps.lean ====
section
/-! SUPPORT. A property that survives each of the moves of `Kept` survives every operation, every command and every step. -/

namespace Sys2Proof.Machine

/-! ### Small facts -/

/-- A channel just written reads as written. -/
theorem setChannel_same (s : State) (c : ChannelId) (x : Channel) : (s.setChannel c x).channels[c] = x := by
  rw [State.setChannel_channels, set_getElem, if_pos rfl]

/-- A beat takes 1 from what remains. -/
theorem advance_remaining (e : Element) : e.advance.remaining = e.remaining - 1 := by
  unfold Element.advance
  simp only
  split <;> rfl

/-- A done flag stands in the window. -/
theorem markDone_window (s : State) (c : ChannelId) (x : Byte) :
    s.markDone c x = { s with window := (s.markDone c x).window } := by
  unfold State.markDone; split <;> rfl

/-- What holds of the sixteen effects holds of the effect of every command code. -/
theorem effectOf_forall {Q : Effect → Prop} (h1 : Q domOpen) (h2 : Q domClose) (h3 : Q invAll) (h4 : Q invDomain)
    (h5 : Q invPage) (h6 : Q probe) (h7 : Q chStart) (h8 : Q chHalt) (h9 : Q chContinue) (h10 : Q chSkip)
    (h11 : Q chAbort) (h12 : Q fqPop) (h13 : Q urgentReq) (h14 : Q resume) (h15 : Q lockClear)
    (h16 : Q (fun _ s => (s, .badCommand))) (code : Byte) : Q (effectOf code) := by
  unfold effectOf; split <;> assumption

/-- `Kept.same` where the seven fields are visibly the same. -/
theorem Kept.unmoved {P : State → Prop} (K : Kept P) {s t : State} (p : P s) (h1 : t.channels = s.channels := by rfl)
    (h2 : t.queue = s.queue := by rfl) (h3 : t.engine.service = s.engine.service := by rfl)
    (h4 : t.engine.server = s.engine.server := by rfl) (h5 : t.urgent.mode = s.urgent.mode := by rfl)
    (h6 : t.urgent.step = s.urgent.step := by rfl) (h7 : t.urgent.latch = s.urgent.latch := by rfl) : P t :=
  K.same p h1 h2 h3 h4 h5 h6 h7

/-! ### Operation by operation -/

variable {P : State → Prop} (K : Kept P)
include K

theorem Goes.kept {s t : State} (h : Goes s t) (p : P s) : P t :=
  K.same p h.channels h.queue h.service h.server (by rw [h.urgent]) (by rw [h.urgent]) (by rw [h.urgent])

theorem Acts.kept {s t : State} (h : Acts s t) (hs : s.engine.service ≠ .none) (p : P s) : P t := by
  cases h with
  | goes h => exact h.kept K p
  | ends c st h e hst => exact K.ends c st (h.kept K p) (h.service ▸ hs) (h.server ▸ e) hst
  | faults c k a addr h e => exact K.faults c _ (h.kept K p) (h.service ▸ hs) (h.server ▸ e)
  | holds f h e => exact K.holds f (h.kept K p) (h.service ▸ hs) (h.server ▸ e)

theorem kept_engineAnswer (s : State) (a : Answer) (p : P s) : P (s.engineAnswer a) := by
  by_cases h : s.engine.service = .none
  · have e : s.engineAnswer a = s := by unfold State.engineAnswer; rw [h]
    rw [e]; exact p
  · exact (Acts.engineAnswer s a).kept K h p

theorem kept_nextBeatU (s : State) (hv : s.engine.service ≠ .none) (hs : s.engine.server = .urgent)
    (p : P s) : P s.nextBeat := by
  rcases nextBeat_urgent s hs with ⟨-, e⟩ | ⟨-, e⟩
  · refine e.kept K (by simp [State.startService]) ?_
    refine K.serveUrgent _ ?_ hv hs (by simp)
    exact K.unmoved p
  · exact e.kept K hv p

theorem kept_serviceBegin (s : State) (c : ChannelId) (ph : Phase)
    (p : P s) (h1 : s.urgent.mode = .normal) (h2 : s.engine.service = .none)
    (h3 : s.channels[c].state = .ready) :
    P ((s.setChannel c { s.channels[c] with state := .active }).serviceBegin (.channel c) ph) := by
  cases ph with
  | fetch =>
    exact (Acts.fetchBegin _ _).kept K (by simp [State.startService])
      (K.grant c .fetch p h1 h2 h3 (by simp) (by simp))
  | writeback =>
    exact (Acts.writebackBegin _ _).kept K (by simp [State.startService])
      (K.grant c .writeback p h1 h2 h3 (by simp) (by simp))
  | move =>
    unfold State.serviceBegin State.moveBegin
    have hc := setChannel_same s c { s.channels[c] with state := .active }
    rcases nextBeat_channel
        ((s.setChannel c { s.channels[c] with state := .active }).startService (.channel c) .move) c rfl
      with ⟨-, e⟩ | ⟨hr, e⟩
    · rw [e]
      have := K.grantDone c p h1 h2 h3
      refine K.same this ?_ rfl rfl rfl rfl rfl rfl
      simp only [State.endService, State.modChannel, State.freeEngine_channels, State.setChannel_channels,
        State.startService_channels, set_getElem, if_pos, Vector.set_set]
      rfl
    · refine e.kept K (by simp [State.startService]) (K.grant c .move p h1 h2 h3 (by simp) (fun _ => ?_))
      rw [State.startService_channels, hc] at hr
      exact hr

theorem kept_startRun (s : State) (l : Option Source) (hl : l = s.urgent.latch ∨ l = none) (p : P s)
    (h : s.urgent.mode = .urgentHold ∨ (s.urgent.mode = .urgentEntry ∧ s.urgent.step = .save)
      ∨ (s.engine.service ≠ .none ∧ s.engine.server = .urgent)) :
    P ({ s with urgent := { s.urgent with latch := l } }).startRun := by
  unfold State.startRun
  refine (Acts.fetchBegin _ _).kept K (by simp [State.startService]) ?_
  exact K.unmoved (K.run l p hl h)

theorem kept_beginRestore (s : State) (p : P s)
    (h : s.urgent.mode = .urgentHold ∨ (s.engine.service ≠ .none ∧ s.engine.server = .urgent)) : P s.beginRestore :=
  K.unmoved (K.restore p h)

theorem kept_rerun (s : State) (p : P s)
    (h : s.urgent.mode = .urgentHold ∨ (s.engine.service ≠ .none ∧ s.engine.server = .urgent)) : P s.rerunOrRestore := by
  unfold State.rerunOrRestore
  split
  · exact kept_startRun K s none (.inr rfl) p (h.imp id .inr)
  · exact kept_beginRestore K s p h

theorem kept_failAction (s : State) (k : FaultKind) (a : FaultAccess) (addr : BitVec 22)
    (h : s.engine.service ≠ .none) (p : P s) : P (s.failAction k a addr) := (Acts.failAction s _ _ _).kept K h p

theorem kept_fetchReadEnd (s : State) (a : Access) (e : BusEnd)
    (h : s.engine.service = .fetch) (p : P s) : P (s.fetchReadEnd a e) := by
  cases e with
  | busError => exact kept_failAction K s _ _ _ (by simp [h]) p
  | ready sd =>
    have p' : P (s.modEngine (fun x => { x with fetched := x.fetched ++ [a.taken sd] })) := K.unmoved p
    have h' : (s.modEngine (fun x => { x with fetched := x.fetched ++ [a.taken sd] })).engine.service ≠ .none := by
      simp [State.modEngine, h]
    unfold State.fetchReadEnd
    simp only
    split
    · unfold State.fetchDone
      simp only
      split
      · rename_i hf
        split
        · rename_i hsv
          rw [hsv] at hf
          exact K.load _ _ p' h' hsv hf
        · rename_i hsv
          refine kept_nextBeatU K _ (by simp [State.startService]) rfl ?_
          exact K.unmoved (K.serveUrgent .move p' h' hsv (by simp))
      · exact kept_failAction K _ _ _ _ h' p'
    · exact (Acts.fetchNext _).kept K h' p'

theorem kept_beatReadEnd (s : State) (a : Access) (e : BusEnd)
    (h : s.engine.service = .move) (p : P s) : P (s.beatReadEnd a e) := by
  cases e with
  | busError => exact kept_failAction K s _ _ _ (by simp [h]) p
  | ready sd => exact (Goes.issueWrite _).kept K (K.unmoved p)

theorem kept_beatWriteEnd (s : State) (e : BusEnd)
    (h : s.engine.service = .move) (p : P s) : P (s.beatWriteEnd e) := by
  cases e with
  | busError => exact kept_failAction K s _ _ _ (by simp [h]) p
  | ready sd =>
    show P (State.nextBeat _)
    cases hs : s.engine.server with
    | urgent =>
      refine kept_nextBeatU K _ ?_ ?_ ?_
      · simp [State.modEngine, State.putElement, hs, h, State.modU]
      · simp [State.modEngine, State.putElement, hs, h, State.modU]
      · refine K.same p ?_ ?_ ?_ ?_ ?_ ?_ ?_ <;> simp [State.modEngine, State.putElement, hs, h, State.modU]
    | channel c =>
      have hel : s.element = s.channels[c].element := by unfold State.element; rw [hs]
      have hput : s.putElement s.element.advance = s.setChannel c { s.channels[c] with
          remaining := s.channels[c].remaining - 1, source := s.channels[c].element.advance.source,
          dest := s.channels[c].element.advance.dest } := by
        unfold State.putElement
        rw [hs, hel]
        simp only [State.modChannel, advance_remaining]
        rfl
      rw [hput]
      set u := State.modEngine (s.setChannel c _) _ with hu
      have hsu : u.engine.server = .channel c := by rw [hu]; exact hs
      have hvu : u.engine.service = .move := by rw [hu]; exact h
      have hcu : u.channels = s.channels.set c { s.channels[c] with
          remaining := s.channels[c].remaining - 1, source := s.channels[c].element.advance.source,
          dest := s.channels[c].element.advance.dest } := by rw [hu]; rfl
      have hcc : u.channels[c] = { s.channels[c] with
          remaining := s.channels[c].remaining - 1, source := s.channels[c].element.advance.source,
          dest := s.channels[c].element.advance.dest } := by rw [hcu, set_getElem, if_pos rfl]
      rcases nextBeat_channel u c hsu with ⟨hr, e⟩ | ⟨hr, e⟩
      · rw [e]
        rw [hcc] at hr
        refine K.same (K.lastBeat c p h hs hr) ?_ rfl rfl rfl rfl rfl rfl
        simp only [State.endService, State.modChannel, State.freeEngine_channels, State.setChannel_channels,
          set_getElem, if_pos, Vector.set_set, hcu]
      · rw [hcc] at hr
        refine e.kept K (by simp [hvu]) ?_
        exact K.same (K.beat c p h hs hr) hcu rfl rfl rfl rfl rfl rfl

theorem kept_statusWriteEnd (s : State) (e : BusEnd)
    (h : s.engine.service = .writeback) (p : P s) : P (s.statusWriteEnd e) := by
  have h0 : s.engine.service ≠ .none := by simp [h]
  cases e with
  | busError => exact kept_failAction K s _ _ _ h0 p
  | ready sd =>
    unfold State.statusWriteEnd
    simp only
    split
    · rename_i c hs
      rw [markDone_window]
      exact K.unmoved (K.advance c p h0 hs)
    · rename_i hs
      split
      · unfold State.urgentChainEnd
        split
        · exact K.holds _ p h0 hs
        · exact kept_rerun K s p (.inr ⟨h0, hs⟩)
      · split
        · exact K.holds _ p h0 hs
        · refine (Acts.fetchBegin _ _).kept K (by simp [State.startService]) ?_
          exact K.unmoved (K.serveUrgent .fetch p h0 hs (by simp))

theorem kept_deliverFault (s : State) (k : FaultKind) (p : P s) : P (s.deliverFault k) := by
  unfold State.deliverFault; split
  · exact kept_engineAnswer K _ _ (K.unmoved p)
  · exact K.unmoved p

theorem kept_deliverDeclined (s : State) (p : P s) : P (s.deliverDeclined) := by
  unfold State.deliverDeclined; split
  · exact kept_engineAnswer K _ _ (K.unmoved p)
  · exact K.unmoved p

theorem kept_deliver (s : State) (w : Bool) (p : P s) : P (s.deliver w) := by
  unfold State.deliver; simp only; split
  · exact kept_engineAnswer K _ _ (K.unmoved p)
  · exact K.unmoved p

theorem kept_startWalk (s : State) (q : Requester) (r : WalkRequest) (p : P s) : P (s.startWalk q r) := by
  unfold State.startWalk; simp only; split
  · exact kept_deliverFault K _ _ (K.unmoved p)
  · exact K.unmoved p

theorem kept_walkAccessEnd (s : State) (a : Access) (e : BusEnd) (p : P s) : P (s.walkAccessEnd a e) := by
  unfold State.walkAccessEnd
  split
  · split
    · exact kept_startWalk K _ _ _ p
    · exact kept_deliverDeclined K _ p
  · split
    · exact kept_deliverFault K _ _ p
    · unfold State.dirWord; simp only; split
      · split
        · exact K.unmoved p
        · exact kept_deliverFault K _ _ (K.unmoved p)
      · exact K.unmoved p
    · unfold State.pageWord; simp only; split
      · split
        · unfold State.walkChecks; simp only; split
          · exact kept_deliverFault K _ _ (K.unmoved p)
          · split
            · exact K.unmoved p
            · exact kept_deliver K _ _ (K.unmoved p)
        · exact kept_deliverFault K _ _ (K.unmoved p)
      · exact K.unmoved p
    · exact kept_deliver K _ _ p
    · exact p

theorem kept_takeRequest (s : State) (p : P s) : P (s.takeRequest) := by
  unfold State.takeRequest
  split
  · exact kept_startWalk K _ _ _ (K.unmoved p)
  · exact kept_startWalk K _ _ _ (K.unmoved p)
  · exact p

theorem kept_settleBus (s : State) (p : P s) : P s.settleBus := by
  unfold State.settleBus
  split
  · exact p
  · exact K.unmoved p

theorem kept_declineWaiting (s : State) (p : P s) : P (s.declineWaiting) := by
  have : P (match s.walker.engineWaiting with
    | some _ => ((s.modWalker (fun w => { w with engineWaiting := none })).engineAnswer .declined).settleBus
    | none => s) := by
    split
    · exact kept_settleBus K _ (kept_engineAnswer K _ _ (K.unmoved p))
    · exact p
  unfold State.declineWaiting
  simp only
  split
  · exact K.unmoved this
  · exact this

theorem kept_urgentRequest (s : State) (src : Source) (p : P s) : P (s.urgentRequest src) := by
  unfold State.urgentRequest
  split
  · exact kept_declineWaiting K _ (K.unmoved (K.entry p (by assumption)))
  · split
    · exact K.latch src p (by simp [*])
    · exact p
  · split
    · exact K.latch src p (by simp [*])
    · exact p
  · split
    · exact K.latch src p (by simp [*])
    · exact p
  · split
    · exact K.latch src p (by simp [*])
    · exact p
  · exact p

theorem kept_wakeLines (s : State) (l : BitVec 8) (p : P s) : P (s.wakeLines l) := by
  unfold State.wakeLines; split
  · rename_i h; exact K.wake l p h.1
  · exact p

theorem kept_complete (s : State) : P (s.completeEngineReset) := by
  have : P s.resetBlocks := K.reset rfl rfl rfl rfl rfl
  unfold State.completeEngineReset State.urqAfterReset
  split
  · exact kept_urgentRequest K _ _ (K.unmoved this)
  · exact this

theorem kept_markStale (s : State) (m : WalkRequest → Bool) (p : P s) : P (s.markStale m) := by
  unfold State.markStale; split
  · exact K.unmoved p
  · exact p

theorem kept_accessEnd (s : State) (r : Slot) (on : Bool) (act : State → Access → State) (p : P s)
    (hact : ∀ a, on = true → P { s with sbi := { s.sbi with inFlight := none } } →
      P (act { s with sbi := { s.sbi with inFlight := none } } a)) : P (s.accessEnd r on act) := by
  unfold State.accessEnd
  split
  · exact p
  · split
    · split
      · exact kept_complete K _
      · exact kept_settleBus K _ (hact _ (by assumption) (K.unmoved p))
    · exact p

theorem kept_command (s : State) (code : Byte) (f : Effect) (p : P s)
    (hf : ∀ a t, P t → P (f a t).1) : P (s.command code f) := by
  unfold State.command
  split
  · exact K.unmoved p
  · have h1 := hf s.window.args (s.latch code) (K.unmoved p)
    exact K.unmoved h1

theorem kept_invalidate (s : State) (m : CacheEntry → Bool) (p : P s) : P (s.invalidate m) :=
  K.same p (by simp) (by simp) (by simp) (by simp) (by simp) (by simp) (by simp)

theorem kept_setCacheSet (s : State) (i : Fin 16) (x : CacheSet) (p : P s) : P (s.setCacheSet i x) :=
  K.same p (by simp) (by simp) (by simp) (by simp) (by simp) (by simp) (by simp)

theorem kept_invDom (s : State) (d : DomainId) (p : P s) : P (s.invalidateDomain d) :=
  kept_markStale K _ _ (kept_invalidate K s _ p)

theorem kept_invAll (s : State) (p : P s) : P s.invalidateAll := kept_markStale K _ _ (kept_invalidate K s _ p)

theorem kept_invPage (s : State) (d : DomainId) (v : VAddr) (p : P s) : P (s.invalidatePage d v) := by
  unfold State.invalidatePage
  exact kept_markStale K _ _ (kept_setCacheSet K s _ _ p)

omit K in
theorem kept_onChannel (f : ChannelId → Channel → Effect) (a : Args) (s : State) (p : P s)
    (hf : ∀ c a, P (f c s.channels[c] a s).1) : P (onChannel f a s).1 := by
  unfold onChannel
  split
  · exact p
  · split
    · exact p
    · exact hf _ _

theorem kept_effect (code : Byte) (a : Args) (s : State) (p : P s) : P (effectOf code a s).1 := by
  refine effectOf_forall (Q := fun f => P (f a s).1) ?_ ?_ ?_ ?_ ?_ ?_ ?_ ?_ ?_ ?_ ?_ ?_ ?_ ?_ ?_ ?_ code
  · unfold domOpen; simp only; (repeat' split) <;> first | exact p | exact K.unmoved p
  · unfold domClose; (repeat' split) <;> first | exact p | skip
    exact K.unmoved (kept_invDom K _ _ p)
  · exact kept_invAll K _ p
  · unfold invDomain;  (repeat' split) <;> first | exact p | exact kept_invDom K _ _ p
  · unfold invPage;  (repeat' split) <;> first | exact p | exact kept_invPage K _ _ _ p
  · unfold probe;  (repeat' split) <;> try exact p
    unfold State.probeLookup; simp only; split <;> exact K.unmoved p
  · refine kept_onChannel _ _ _ p ?_; intro c a
    split
    · exact p
    · rename_i hst
      (repeat' split) <;> first | exact p | skip
      refine K.unmoved (K.start c _ _ a p ?_)
      by_contra hh; exact hst ⟨fun h => hh (.inl h), fun h => hh (.inr h)⟩
  · refine kept_onChannel _ _ _ p ?_; intro c a
    split
    · exact K.halt c p (.inl (by assumption))
    · exact K.halt c p (.inr (by assumption))
    · exact K.pend c _ _ p (by assumption)
    all_goals exact p
  · refine kept_onChannel _ _ _ p ?_; intro c a
    split
    · exact K.continue_ c p (.inl (by assumption))
    · exact K.continue_ c p (.inr (by assumption))
    all_goals exact p
  · refine kept_onChannel _ _ _ p ?_; intro c a
    split
    · exact K.skip c p (.inl (by assumption))
    · exact K.skip c p (.inr (by assumption))
    · rw [markDone_window]; exact K.unmoved (K.skipAdvance c p (.inl (by assumption)))
    · rw [markDone_window]; exact K.unmoved (K.skipAdvance c p (.inr (by assumption)))
    · exact p
  · refine kept_onChannel _ _ _ p ?_; intro c a
    split <;> rename_i h
    · exact K.abort c p (by rw [h]; decide) (by rw [h]; decide)
    · exact K.abort c p (by rw [h]; decide) (by rw [h]; decide)
    · exact K.abort c p (by rw [h]; decide) (by rw [h]; decide)
    · exact K.abort c p (by rw [h]; decide) (by rw [h]; decide)
    · exact K.abort c p (by rw [h]; decide) (by rw [h]; decide)
    · exact K.abort c p (by rw [h]; decide) (by rw [h]; decide)
    · exact K.pend c _ _ p h
    · exact p
  · unfold fqPop;  (repeat' split) <;> first | exact p | skip
    exact K.pop p (by assumption)
  · exact kept_urgentRequest K _ _ p
  · unfold resume; split
    · exact p
    · exact kept_rerun K _ p (.inl (by simp_all))
  · unfold lockClear; split
    · exact p
    · exact K.sweep p (by simp_all)
  · exact p

theorem kept_restoreReadEnd (s : State) (a : Access) (e : BusEnd)
    (h : s.urgent.mode = .urgentRestore) (p : P s) : P (s.restoreReadEnd a e) := by
  cases e with
  | busError => exact K.unmoved (K.lock p (.inl h))
  | ready sd =>
    unfold State.restoreReadEnd
    simp only
    set u : State := { s with urgent := { s.urgent with
      image := s.urgent.image ++ [a.taken sd], readProgress := s.urgent.readProgress + 1 } } with hu
    have pu : P u := K.unmoved p
    have mu : u.urgent.mode = .urgentRestore := h
    clear_value u
    split
    · unfold State.finishRestore
      split
      · exact K.unmoved (K.lock pu (.inl mu))
      · unfold State.relocate
        simp only
        split
        · exact K.unmoved (K.entered pu mu (by assumption))
        · exact kept_wakeLines K _ _ (K.unmoved (K.restored pu mu (by assumption) (by assumption)))
    · exact K.unmoved pu

theorem kept_saveWriteEnd (s : State) (e : BusEnd)
    (h : s.urgent.mode = .urgentEntry ∧ s.urgent.step = .save) (p : P s) : P (s.saveWriteEnd e) := by
  cases e with
  | busError => exact K.unmoved (K.lock p (.inr h))
  | ready sd => 
    unfold State.saveWriteEnd; simp only; split
    · exact kept_startRun K { s with urgent := { s.urgent with saveProgress := s.urgent.saveProgress + 1 } }
        s.urgent.latch (.inl rfl) (K.unmoved p) (.inr (.inl h))
    · exact K.unmoved p

omit K in
theorem kept_unless (s t : State) (h : P s) (k : P t) : P (s.unlessReset t) := by
  unfold State.unlessReset; split <;> assumption

theorem kept_beginEngineReset (s : State)  (p : P s) : P s.beginEngineReset := by
  unfold State.beginEngineReset
  (repeat' split) <;> first | exact p | exact kept_complete K _ | exact K.unmoved p

theorem kept_writeReg (s : State) (r : BitVec 6) (v : Word) (p : P s) : P (s.writeReg r v) := by
  unfold State.writeReg
  split
  · unfold State.writeCtrl; split
    · exact kept_beginEngineReset K _ p
    · exact p
  · exact kept_command K _ _ _ p (fun a t => kept_effect K _ a t)
  all_goals first
    | exact p
    | exact K.unmoved p
    | (unfold State.writeField; simp only; split <;> exact K.unmoved p)
    | (unfold State.writeGrants; simp only; split <;> exact K.unmoved p)
    | (unfold State.writeSaveLow; split <;> exact K.unmoved p)
    | (unfold State.writeSaveHigh; simp only; split <;> exact K.unmoved p)
    | (unfold State.writeListLow; split <;> exact K.unmoved p)
    | (unfold State.writeListHigh; split <;> exact K.unmoved p)

theorem kept_schedule (s : State) (p : P s) : P s.schedule := by
  unfold State.schedule
  split
  · rename_i c hp hc
    unfold State.grantPossible at hp
    simp only [Bool.and_eq_true, beq_iff_eq] at hp
    have hr : s.channels[c].state = .ready := by
      unfold State.grantChoice at hc
      obtain ⟨q, -, hq⟩ := List.exists_of_findSome?_eq_some hc
      have := List.find?_some hq
      unfold State.readyIn at this
      simp only [Bool.and_eq_true, beq_iff_eq] at this
      exact this.1
    unfold State.grantTo
    exact kept_serviceBegin K { s with pointers := s.pointers.set s.channels[c].priority c } c _ (K.unmoved p) hp.1.2 hp.1.1 hr
  · exact p

/-- Every command keeps the property. -/
theorem kept_exec (i : Instr) (s t : State) (p : P s) (e : exec i s = .next t) : P t := by
  cases i <;> (injection e with e; subst e) <;> try refine kept_unless _ _ p ?_
  case domOpen => exact kept_command K _ _ _ p (fun a t => kept_effect K 0x01 a t)
  case domClose => exact kept_command K _ _ _ p (fun a t => kept_effect K 0x02 a t)
  case invAll => exact kept_command K _ _ _ p (fun a t => kept_effect K 0x03 a t)
  case invDomain => exact kept_command K _ _ _ p (fun a t => kept_effect K 0x04 a t)
  case invPage => exact kept_command K _ _ _ p (fun a t => kept_effect K 0x05 a t)
  case probe => exact kept_command K _ _ _ p (fun a t => kept_effect K 0x06 a t)
  case chStart => exact kept_command K _ _ _ p (fun a t => kept_effect K 0x07 a t)
  case chHalt => exact kept_command K _ _ _ p (fun a t => kept_effect K 0x08 a t)
  case chContinue => exact kept_command K _ _ _ p (fun a t => kept_effect K 0x09 a t)
  case chSkip => exact kept_command K _ _ _ p (fun a t => kept_effect K 0x0A a t)
  case chAbort => exact kept_command K _ _ _ p (fun a t => kept_effect K 0x0B a t)
  case fqPop => exact kept_command K _ _ _ p (fun a t => kept_effect K 0x0C a t)
  case urgentReq => exact kept_command K _ _ _ p (fun a t => kept_effect K 0x0D a t)
  case resume => exact kept_command K _ _ _ p (fun a t => kept_effect K 0x0E a t)
  case lockClear => exact kept_command K _ _ _ p (fun a t => kept_effect K 0x0F a t)
  case unknownCommandCode => exact kept_command K _ _ _ p (fun a t => kept_effect K _ a t)
  case engineReset => exact kept_beginEngineReset K _ p
  case engineResetComplete => split; exact kept_complete K _; exact p
  case domainFieldWrite f v =>
    cases f
    · exact kept_writeReg K s 0x11#6 v p
    · exact kept_writeReg K s 0x12#6 v p
    · exact kept_writeReg K s 0x13#6 v p
    · exact kept_writeReg K s 0x14#6 v p
  case grantWordWrite v => exact kept_writeReg K s 0x16#6 v p
  case saveBaseLowWrite v => exact kept_writeReg K s 0x36#6 v p
  case saveBaseHighWrite v => exact kept_writeReg K s 0x37#6 v p
  case listBaseLowWrite v => exact kept_writeReg K s 0x38#6 v p
  case listBaseHighWrite v => exact kept_writeReg K s 0x39#6 v p
  case registerWrite r v => exact kept_writeReg K s r v p
  case hardReset => exact K.reset rfl rfl rfl rfl rfl
  case rstRelease => 
    unfold State.releaseReset; split
    · exact K.unmoved p
    · exact p
  case urqRequest => 
    unfold State.urqFalls; simp only; split
    · exact kept_urgentRequest K _ _ (K.unmoved p)
    · exact K.unmoved p
  case lineAsserted => exact kept_wakeLines K _ _ (K.unmoved p)
  case schedulerGrant => exact kept_schedule K _ (K.unmoved p)
  case walkStart => split; exact kept_settleBus K _ (kept_takeRequest K _ p); exact p
  case walkAccessEnd => exact kept_accessEnd K _ _ _ _ p (fun a _ => kept_walkAccessEnd K _ _ _)
  case fetchReadEnd => exact kept_accessEnd K _ _ _ _ p (fun a h => kept_fetchReadEnd K _ _ _ (by simpa using h))
  case beatReadEnd => exact kept_accessEnd K _ _ _ _ p (fun a h => kept_beatReadEnd K _ _ _ (by simp at h; exact h.1))
  case beatWriteEnd =>
    exact kept_accessEnd K _ _ _ _ p
      (fun a h p => kept_beatWriteEnd K _ _ (by simp at h; exact h.1) (K.unmoved p))
  case statusWriteEnd => exact kept_accessEnd K _ _ _ _ p (fun a h => kept_statusWriteEnd K _ _ (by simpa using h))
  case saveWriteEnd => exact kept_accessEnd K _ _ _ _ p (fun a h => kept_saveWriteEnd K _ _ (by simpa using h))
  case restoreReadEnd =>
    exact kept_accessEnd K _ _ _ _ p
      (fun a h p => kept_restoreReadEnd K _ _ _ (by simpa using h) (K.unmoved p))
  case saveBegin =>
    split
    · rename_i hd
      unfold State.drained at hd
      simp only [Bool.and_eq_true, beq_iff_eq] at hd
      exact K.unmoved (K.save p hd.1.1.1.1 hd.1.1.2)
    · exact p
  all_goals exact K.unmoved p
/-- Every step keeps the property. -/
theorem kept_step (s t : State) (p : P s) (e : step s = .next t) : P t := by
  unfold step at e
  split at e
  · injection e with e; subst e; exact p
  · exact kept_exec K _ _ t (K.unmoved p) e

end Sys2Proof.Machine
end

