-- ==== Sys2Proof/Tests/Slice0.lean ====
section
/-! SUPPORT. Small tests: the terms that are no row of the table, one step of each command on a small state, mostly from the
spec's worked examples, and for every statement with hypotheses a state and operands that meet them. -/

namespace Sys2Proof.Tests

open Sys2Proof.Machine

/-! ### Small states -/

/-- After the tenure of the reset has ended. -/
def base : State := { State.reset with sbi := { Sbi.reset with tenure := .idle } }

/-- With ARG0 to ARG3. -/
def withArgs (a b c d : Word) (s : State) : State :=
  { s with window := { s.window with args := { arg0 := a, arg1 := b, arg2 := c, arg3 := d } } }

/-- In another mode. -/
def inMode (m : Mode) (s : State) : State := { s with urgent := { s.urgent with mode := m } }

/-- With another urgent list base. -/
def withList (b : PAddr) (s : State) : State := { s with urgent := { s.urgent with listBase := b } }

/-- With the latch set. -/
def latched (src : Source) (s : State) : State := { s with urgent := { s.urgent with latch := some src } }

/-- An open domain: directory at 01A380H, page limit 383, tracking on (01_domains_and_grant_maps.md, 1.6). -/
def openRecord : DomainRecord :=
  { state := .opened, dirBase := 0x347#17, pageLimit := 383#11, readOnly := false, trackUsed := true,
    trackWritten := true }

/-- With domain `d` open. -/
def withDomain (d : DomainId) (s : State) : State := { s with domains := s.domains.set d openRecord }

/-- With a channel. -/
def withChannel (c : ChannelId) (x : Channel) (s : State) : State := { s with channels := s.channels.set c x }

/-- With an access in flight. -/
def carrying (r : Slot) (a : Access) (s : State) : State :=
  { s with sbi := { s.sbi with tenure := .owner, granted := true, inFlight := some (r, a) } }

/-- With the Engine in a service. -/
def serving (w : Server) (v : Service) (s : State) : State :=
  { s with engine := { Engine.free with service := v, server := w } }

/-- With the Engine in a beat. -/
def atStage (g : BeatStage) (p q : Option PAddr) (s : State) : State :=
  { s with engine := { s.engine with stage := g, readAt := p, writeAt := q } }

/-- With a cache entry. -/
def withCached (w : Fin 4) (e : CacheEntry) (s : State) : State :=
  { s with cache := s.cache.set (setOf e.vpn) (s.cache[setOf e.vpn].set w e) }

/-- With a cached page. -/
def withEntry (w : Fin 4) (d : DomainId) (p : Vpn) (f : Frame) (known : Bool) (s : State) : State :=
  withCached w
    { valid := true, referenced := true, domain := d, vpn := p, frame := f, writable := true, writtenKnown := known } s

/-- With a page of domain 6 cached for reads only. -/
def withReadOnly (p : Vpn) (s : State) : State :=
  withCached 2
    { valid := true, referenced := true, domain := 6, vpn := p, frame := 0x91, writable := false, writtenKnown := false } s

/-- With the walker's record changed. -/
def withWalker (f : Walker → Walker) (s : State) : State := { s with walker := f s.walker }

/-- With a fault queue. -/
def withQueue (q : List FaultRecord) (s : State) : State := { s with queue := q }

/-- With an engine reset in progress. -/
def resetting (s : State) : State := { s with window := { s.window with resetting := true } }

/-- With RST/ asserted. -/
def held (s : State) : State := { s with pins := { s.pins with rst := true } }

/-- A channel in a chain of domain 6: a COPY of 3 words. -/
def copying (st : ChannelState) (ph : Phase) : Channel :=
  { Channel.reset with
    state := st, phase := ph, domain := 6, burst := 4, line := none, control := 0x04#8, count := 3, remaining := 3,
    source := 0x0A5C3E#32, dest := 0x0A5C40#32, next := 0x4A40#32, descriptor := 0x4A00#32 }

/-- The same with an INGEST of words from port 40H, paced by PREQ2 (06_scheduling_and_the_transfer_engine.md, 6.6). -/
def ingesting (st : ChannelState) (ph : Phase) : Channel :=
  { copying st ph with control := 0x05#8, source := 0x40#32, line := some 2 }

/-- The same with an EMIT of words to port 44H. -/
def emitting (st : ChannelState) (ph : Phase) : Channel :=
  { copying st ph with control := 0x06#8, dest := 0x44#32, line := none }

/-- A record of channel `c`. -/
def record (c : ChannelId) : FaultRecord :=
  { channel := c, domain := 6, kind := .busError, access := .write, address := 0x0A5C44#22, descriptor := 0x4A00#22,
    phase := .move }

/-- U in a service, in URGENT_RUN. -/
def running (v : Service) (control : Byte) (s : State) : State :=
  serving .urgent v (inMode .urgentRun { s with urgent := { s.urgent with
    u := { UContext.reset with phase := .writeback, control := control, next := 0x100#32 } } })

/-- With ports 40H to 4FH granted to domain 6 as in this word. -/
def withPorts (w : Word) (s : State) : State := { s with grants := s.grants.set 6 (s.grants[6].set 4 w) }

/-- A word access to memory. -/
def wordAccess : Access := readWord 0x01A394#24

/-- The state after a command, or the same state where it does not answer next. -/
def after (i : Instr) (s : State) : State :=
  match exec i s with
  | .next t => t
  | _ => s

/-- The request of the walk in 02_page_tables_and_the_walk.md, 2.8. -/
def firstRead : WalkRequest := { domain := 6, vaddr := 0x0A5C3E#22, access := .read }

/-- The walk of `firstRead` in a step. -/
def walking (st : WalkerState) (second : Bool) (s : State) : State :=
  withWalker (fun w => { w with
    state := st, request := firstRead, tracking := true, dirBase := 0x347#17, pageLimit := 383#11, trackUsed := true,
    trackWritten := true, second := second, dirPresent := true, tableBase := 0x0235#16, pageLow := 0x8803#16,
    frame := 0x091#13 }) s

/-! ### Terms that are no row of the table -/

theorem test_wellFormed_unknown_refuses_named_code :
    (Instr.unknownCommandCode 0x0001#16).wellFormed = false ∧ (Instr.unknownCommandCode 0xAB0F#16).wellFormed = false
    ∧ (Instr.unknownCommandCode 0x0100#16).wellFormed = true ∧ (Instr.unknownCommandCode 0x0010#16).wellFormed = true := by
  decide

theorem test_wellFormed_registerWrite_refuses_owned_register :
    (Instr.registerWrite 0x02#6 0#16).wellFormed = false ∧ (Instr.registerWrite 0x01#6 0x5AA5#16).wellFormed = false
    ∧ (Instr.registerWrite 0x39#6 0#16).wellFormed = false ∧ (Instr.registerWrite 0x01#6 0x5AA4#16).wellFormed = true
    ∧ (Instr.registerWrite 0x04#6 0#16).wellFormed = true := by decide

theorem test_no_row_has_bits : decodeTableWord 16 0x5AA5 = none ∧ decodeTableWord 0 0 = none := by decide

/-! ### One step of each command -/

theorem test_domOpen :
    let t := after (.domOpen 0) (withArgs 6 0 0 0 base)
    t.domains[6].state = .opened ∧ t.readReg 0x02#6 = 1 ∧ t.readReg 0x03#6 = 0 := by decide

theorem test_domClose :
    let t := after (.domClose 0) (withArgs 6 0 0 0 (withDomain 6 (withEntry 2 6 331 0x91 true base)))
    t.domains[6].state = .closed ∧ t.domains[6].pageLimit = 383 ∧ t.cache[11][2].valid = false := by decide

theorem test_domClose_busy :
    (after (.domClose 0) (withArgs 6 0 0 0 (withDomain 6 (withChannel 3 (copying .faultWait .move) base)))).window.res
      = .domainBusy := by decide

theorem test_invAll :
    let t := after (.invAll 0) (walking .dirRead false (withEntry 2 6 331 0x91 true base))
    t.cache[11][2].valid = false ∧ t.cache[11][2].vpn = 331 ∧ t.walker.stale = true := by decide

theorem test_invDomain :
    let s := withEntry 1 5 331 0x91 true (withEntry 2 6 331 0x91 true base)
    let t := after (.invDomain 0) (withArgs 6 0 0 0 s)
    t.cache[11][2].valid = false ∧ t.cache[11][1].valid = true := by decide

theorem test_invPage :
    let t := after (.invPage 0) (withArgs 6 0x5C3E 0x000A 0 (withEntry 2 6 331 0x91 true base))
    t.cache[11][2].valid = false ∧ t.window.res = .ok := by decide

theorem test_probe_hit :
    let t := after (.probe 0) (withArgs 6 0x5C3E 0x000A 0 (withDomain 6 (withEntry 2 6 331 0x91 true base)))
    t.readReg 0x18#6 = 1 ∧ t.readReg 0x19#6 = 0x8C3E ∧ t.readReg 0x1A#6 = 4 ∧ t.readReg 0x1B#6 = 7 := by decide

theorem test_probe_miss :
    let t := after (.probe 0) (withArgs 6 0x5C3E 0x000A 1 (withDomain 6 base))
    t.window.busy = true ∧ t.walker.probeWaiting = some { firstRead with access := .write } := by decide

theorem test_chStart :
    let t := after (.chStart 0) (withArgs 2 0xF206 0x4A00 0x0400 (withDomain 6 base))
    t.channels[2].state = .ready ∧ t.channels[2].priority = 2 ∧ t.channels[2].line = none ∧ t.channels[2].burst = 4
    ∧ t.channels[2].descriptor = 0x4A00 := by decide

theorem test_chHalt :
    (after (.chHalt 0) (withArgs 2 0 0 0 (withChannel 2 (copying .waitReq .move) base))).channels[2].state = .halted := by
  decide

theorem test_chContinue :
    (after (.chContinue 0) (withArgs 2 0 0 0 (withChannel 2 (copying .faulted .move) base))).channels[2].state
      = .ready := by decide

theorem test_chSkip :
    let t := after (.chSkip 0) (withArgs 2 0 0 0 (withChannel 2 (copying .halted .move) base))
    t.channels[2].phase = .writeback ∧ t.channels[2].code = .skipped := by decide

theorem test_chAbort :
    let t := after (.chAbort 0) (withArgs 2 0 0 0 (withChannel 2 (copying .faulted .move) base))
    t.channels[2].state = .idle ∧ t.channels[2].completion = .aborted ∧ t.channels[2].remaining = 3 := by decide

theorem test_fqPop :
    let x := { copying .faultWait .move with held := some (record 5) }
    let t := after (.fqPop 0) (withQueue (List.replicate 12 (record 1)) (withChannel 5 x base))
    t.queue = List.replicate 11 (record 1) ++ [record 5] ∧ t.channels[5].state = .faulted := by decide

theorem test_urgentReq :
    let t := after (.urgentReq 0) base
    t.urgent.mode = .urgentEntry ∧ t.readReg 0x30#6 = 0x0081 := by decide

theorem test_resume :
    (after (.resume 0) (inMode .urgentHold base)).urgent.mode = .urgentRestore
    ∧ (after (.resume 0) (withList 0x000108 (latched .line (inMode .urgentHold base)))).urgent.fault = .descFormat
    ∧ (after (.resume 0) (latched .line (inMode .urgentHold base))).urgent.mode = .urgentRun := by decide

theorem test_lockClear :
    let t := after (.lockClear 0) (inMode .locked (withChannel 3 (copying .halted .move) base))
    t.urgent.mode = .normal ∧ t.channels[3].completion = .cleared ∧ t.channels[3].remaining = 3 := by decide

theorem test_unknownCommandCode : (after (.unknownCommandCode 0x0010#16) base).window.res = .badCommand := by decide

theorem test_engineReset :
    let t := after .engineReset (withQueue [record 1] (withDomain 6 (withChannel 3 (copying .halted .move) base)))
    t.queue = [] ∧ t.domains[6].state = .opened ∧ t.channels[3] = Channel.reset := by decide

theorem test_engineResetComplete :
    let t := after .engineResetComplete (resetting (carrying .walker wordAccess base))
    t.window.resetting = false ∧ t.sbi.inFlight = none ∧ t.sbi.tenure = .releasing := by decide

theorem test_engineReset_ends_with_its_access :
    let s := resetting (carrying .engine wordAccess (serving (.channel 3) .fetch (withChannel 3 (copying .active .fetch) base)))
    after (.fetchReadEnd (.ready 0x1234#16)) s = after .engineResetComplete s
    ∧ (after (.fetchReadEnd (.ready 0x1234#16)) s).engine.fetched = [] := by decide

theorem test_tselWrite : (after (.tselWrite 0xFFFF#16) base).readReg 0x10#6 = 0x0F0F := by decide

theorem test_domainFieldWrite :
    let s := after (.domainFieldWrite .dbl 0xA380#16) (after (.domainFieldWrite .dbh 0x0001#16) base)
    s.domains[0].dirBase = 0x347 ∧ s.readReg 0x11#6 = 0xA380 ∧ s.readReg 0x12#6 = 0x0001 := by decide

theorem test_grantWordWrite :
    let s := after (.grantWordWrite 0x000F#16) (after (.tselWrite 0x0406#16) base)
    s.portGranted 6 0x40 = true ∧ s.portGranted 6 0x44 = false ∧ s.readReg 0x16#6 = 0x000F := by decide

theorem test_cselWrite : (after (.cselWrite 0xFFFD#16) base).readReg 0x1C#6 = 5 := by decide

theorem test_wflgWrite :
    let s := { base with window := { base.window with tableLocked := true, refused := true } }
    (after (.wflgWrite 0x0002#16) s).readReg 0x0A#6 = 1 := by decide

theorem test_doneFlagClear :
    (after (.doneFlagClear 0x0005#16) { base with window := { base.window with done := 7 } }).readReg 0x0B#6 = 2 := by
  decide

theorem test_icauseWrite :
    let s := withQueue [record 1] { base with window := { base.window with lockCause := true, cmdCause := true } }
    (after (.icauseWrite 0x0012#16) s).readReg 0x08#6 = 0x000A := by decide

theorem test_ienaWrite :
    let t := after (.ienaWrite 0xFFE2#16) (withQueue [record 1] base)
    t.readReg 0x09#6 = 2 ∧ t.intAsserted = true := by decide

theorem test_saveBase :
    let t := after (.saveBaseHighWrite 0x0001#16) (after (.saveBaseLowWrite 0x0600#16) base)
    t.urgent.saveBase = 0x010600 ∧ t.window.tableLocked = false := by decide

theorem test_saveBase_refused :
    let t := after (.saveBaseHighWrite 0x0100#16) base
    t.urgent.saveBase = 0x000400 ∧ t.window.tableLocked = true := by decide

theorem test_listBase :
    (after (.listBaseHighWrite 0xFF02#16) (after (.listBaseLowWrite 0x1230#16) base)).urgent.listBase = 0x021230 := by
  decide

theorem test_registerWrite :
    (after (.registerWrite 0x05#6 0xBEEF#16) base).readReg 0x05#6 = 0xBEEF
    ∧ (after (.registerWrite 0x00#6 0xBEEF#16) base) = base := by decide

theorem test_windowRead_under_reset : (held base).windowRead 0x00#6 = none ∧ base.windowRead 0x00#6 = some 0x0047 := by
  decide

theorem test_hardReset :
    let t := after .hardReset (withDomain 6 (withQueue [record 1] base))
    t.domains[6].state = .closed ∧ t.queue = [] ∧ t.pins.rst = true := by decide

theorem test_rstRelease :
    (after .rstRelease (after .hardReset (withDomain 6 base))).sbi.tenure = .releasing := by decide

theorem test_urqRequest :
    let t := after .urqRequest (after .urqArm base)
    t.urgent.mode = .urgentEntry ∧ t.urgent.entryCause = some .line ∧ t.urgent.armed = false := by decide

theorem test_urqArm : (after .urqArm base).urgent.armed = true := by decide

theorem test_lineAsserted :
    (after (.lineAsserted 2) (withChannel 3 (ingesting .waitReq .move) base)).channels[3].state = .ready
    ∧ (after (.lineAsserted 3) (withChannel 3 (ingesting .waitReq .move) base)).channels[3].state = .waitReq := by
  decide

theorem test_schedulerGrant_fetch :
    let s := withDomain 6 (withEntry 0 6 9 0x010 true (withChannel 3 (copying .ready .fetch) base))
    let t := after (.schedulerGrant 0) s
    t.channels[3].state = .active ∧ t.pointers[0] = 3 ∧ t.sbi.engine = some (readWord 0x008200) := by decide

theorem test_schedulerGrant_bad_descriptor_address :
    let s := withDomain 6 (withChannel 3 { copying .ready .fetch with descriptor := 0x4A08#32 } base)
    let t := after (.schedulerGrant 0) s
    t.channels[3].state = .faulted ∧ t.sbi = s.sbi ∧ t.engine.service = .none
    ∧ t.queue = [{ record 3 with kind := .descFormat, access := .fetch, address := 0x4A08, descriptor := 0x4A08,
                                 phase := .fetch }] := by decide

theorem test_schedulerGrant_low_line :
    let t := after (.schedulerGrant 0) (withDomain 6 (withChannel 3 (ingesting .ready .move) base))
    t.channels[3].state = .waitReq ∧ t.engine.service = .none := by decide

theorem test_walkStart :
    let s := withDomain 6 (withWalker (fun w => { w with engineWaiting := some firstRead })
      (serving (.channel 3) .move (withChannel 3 (copying .active .move) base)))
    let t := after .walkStart s
    t.walker.state = .dirRead ∧ t.sbi.walker = some (readWord 0x01A394) := by decide

theorem test_walkAccessEnd_directory :
    let t := after (.walkAccessEnd (.ready 0x0002#16)) (carrying .walker wordAccess (withWalker
      (fun w => { w with tableBase := 0x0035 }) (walking .dirRead true base)))
    t.walker.state = .pageRead ∧ t.sbi.inFlight = some (.walker, readWord 0x02352C) := by decide

theorem test_walkAccessEnd_page :
    let t := after (.walkAccessEnd (.ready 0x0004#16)) (carrying .walker wordAccess (walking .pageRead true base))
    t.walker.state = .pageUpdate ∧ t.sbi.inFlight = some (.walker, writeWord 0x02352C 0x8807) := by decide

theorem test_walkAccessEnd_goes_on_with_the_beat :
    let s := fun (x : Channel) => carrying .walker wordAccess
      (walking .pageUpdate false (serving (.channel 3) .move (withChannel 3 x base)))
    (after (.walkAccessEnd (.ready 0)) (s { copying .active .move with dest := 0x4A00 })).walker.engineWaiting
      = some { domain := 6, vaddr := 0x4A00, access := .write }
    ∧ (after (.walkAccessEnd (.ready 0)) (s (ingesting .active .move))).sbi.inFlight
      = some (.engine, { space := .port, width := .word, address := 0x40, write := none }) := by decide

theorem test_fetchReadEnd :
    let s := serving (.channel 3) .fetch (withChannel 3 (copying .active .fetch) base)
    let s := { s with engine := { s.engine with
      fetched := [0x0015, 0x0018, 0x0042, 0x0000, 0x5C40, 0x000A, 0x4A40] } }
    let t := after (.fetchReadEnd (.ready 0)) (carrying .engine wordAccess s)
    t.channels[3].control = 0x15 ∧ t.channels[3].remaining = 24 ∧ t.channels[3].source = 0x42
    ∧ t.channels[3].dest = 0x0A5C40 ∧ t.channels[3].next = 0x4A40 ∧ t.channels[3].phase = .move := by decide

theorem test_beatReadEnd :
    let a : Access := { space := .port, width := .word, address := 0x40, write := none }
    let s := atStage .read none (some 0x048C44) (serving (.channel 3) .move (withChannel 3 (ingesting .active .move) base))
    let t := after (.beatReadEnd (.ready 0x1234#16)) (carrying .engine a s)
    t.engine.datum = some 0x1234 ∧ t.sbi.inFlight = some (.engine, writeWord 0x048C44 0x1234) := by decide

theorem test_beatWriteEnd :
    let s := atStage .write none (some 0x048C44) (serving (.channel 3) .move (withChannel 3 (ingesting .active .move) base))
    let t := after (.beatWriteEnd (.ready 0) 0) (carrying .engine (writeWord 0x048C44 0x1234) s)
    t.channels[3].remaining = 2 ∧ t.channels[3].dest = 0x0A5C42 ∧ t.channels[3].source = 0x40
    ∧ t.channels[3].state = .waitReq := by decide

/-- The write of a beat of channel 3 is in flight, and page 331 is cached. -/
def betweenBeats (known : Bool) (x : Channel) : State :=
  withDomain 6 (withPorts 0x31 (withEntry 2 6 331 0x91 known (carrying .engine wordAccess (atStage .write none (some 0x048C40)
    (serving (.channel 3) .move (withChannel 3 x base))))))

theorem test_beatWriteEnd_next_beat :
    (after (.beatWriteEnd (.ready 0) 0) (betweenBeats true (copying .active .move))).sbi.inFlight
      = some (.engine, readWord 0x048C40)
    ∧ (after (.beatWriteEnd (.ready 0) 0) (betweenBeats true (copying .active .move))).engine.writeAt = some 0x048C42
    ∧ (after (.beatWriteEnd (.ready 0) 0) (betweenBeats true (emitting .active .move))).sbi.inFlight
      = some (.engine, readWord 0x048C40) := by decide

theorem test_beatWriteEnd_next_beat_denied :
    ((after (.beatWriteEnd (.ready 0) 4) (betweenBeats true (ingesting .active .move))).queue.map
      (fun r => (r.kind, r.access, r.address))) = [(.portDenied, .portRead, 0x40)] := by decide

theorem test_beatWriteEnd_busError :
    let s := atStage .write none (some 0x048C44) (serving (.channel 3) .move (withChannel 3
      { ingesting .active .move with dest := 0x0A5C44 } base))
    let t := after (.beatWriteEnd .busError 4) (carrying .engine (writeWord 0x048C44 0x1234) s)
    t.queue = [record 3] ∧ t.channels[3].state = .faulted ∧ t.channels[3].remaining = 3 := by decide

theorem test_statusWriteEnd :
    let s := serving (.channel 3) .writeback (withChannel 3 { copying .active .writeback with control := 0x15 } base)
    let t := after (.statusWriteEnd (.ready 0)) (carrying .engine (writeByte 0x8201 1) s)
    t.channels[3].phase = .fetch ∧ t.channels[3].descriptor = 0x4A40 ∧ t.doneFlag 3 = true := by decide

theorem test_beatWriteEnd_keeps_the_bus_for_its_walk :
    let x := { ingesting .active .move with line := none, dest := 0x0A5FFE#32 }
    let s := atStage .write none (some 0x048FFE) (serving (.channel 3) .move (withPorts 3 (withDomain 6
      (withEntry 2 6 331 0x91 true (withChannel 3 x base)))))
    let t := after (.beatWriteEnd (.ready 0) 0) (carrying .engine (writeWord 0x048FFE 0x1234) s)
    let u := after .walkStart t
    t.walker.engineWaiting = some { domain := 6, vaddr := 0x0A6000, access := .write }
    ∧ t.sbi.tenure = .owner ∧ t.sbi.inFlight = none ∧ t.busRequested = true
    ∧ u.sbi.tenure = .owner ∧ u.sbi.inFlight = some (.walker, readWord 0x01A394) := by decide

theorem test_saveBegin :
    let t := after .saveBegin (inMode .urgentEntry base)
    t.urgent.step = .save ∧ t.sbi.urgent = some (writeWord 0x000400 0x0047) := by decide

theorem test_saveWriteEnd :
    let s := inMode .urgentEntry { base with urgent := { base.urgent with step := .save, entryCause := some .line } }
    (after (.saveWriteEnd (.ready 0)) (carrying .urgent (writeWord 0x000400 0x0047) s)).sbi.inFlight
      = some (.urgent, writeWord 0x000402 0x0001) := by decide

theorem test_restoreReadEnd :
    let t := after (.restoreReadEnd (.ready 0x0047#16) 0) (carrying .urgent (readWord 0x000400) (inMode .urgentRestore base))
    t.urgent.image = [0x0047] ∧ t.sbi.inFlight = some (.urgent, readWord 0x000402) := by decide

theorem test_restoreReadEnd_busError :
    let t := after (.restoreReadEnd .busError 0) (carrying .urgent (readWord 0x000400) (inMode .urgentRestore base))
    t.urgent.mode = .locked ∧ t.readReg 0x34#6 = 2 ∧ t.window.lockCause = true := by decide

theorem test_busGrant :
    let s := { base with sbi := { base.sbi with tenure := .requesting, engine := some wordAccess, walker := some wordAccess } }
    let t := after .busGrant s
    t.sbi.inFlight = some (.walker, wordAccess) ∧ t.sbi.engine = some wordAccess ∧ t.sbi.tenure = .owner := by decide

theorem test_busEndOf : busEndOf true true 7 = some .busError ∧ busEndOf true false 7 = some (.ready 7)
    ∧ busEndOf false false 7 = none := by decide

theorem test_busOutputs_byte_write :
    (carrying .engine (writeByte 0x8201 0x01) base).busOutputs = some
      { sa := 0x008201, memory := true, sbe0 := false, sbe1 := true, read := false, low := none, high := some 0x01 } := by
  decide

theorem test_busGrantDeasserted :
    (after .busGrantDeasserted State.reset).sbi.tenure = .idle
    ∧ (after .busGrantDeasserted (carrying .walker wordAccess base)).sbi.granted = false := by decide

/-! ### The hypotheses of each statement can be met, clause by clause -/

theorem test_meets_StepTakesFrontCommand : base.pending = [] := by decide

theorem test_meets_NothingTakenWhileResetHeld :
    (held base).pins.rst = true ∧ Instr.invAll 0 ≠ .hardReset ∧ Instr.busGrant ≠ .rstRelease ∧ base.Running := by decide

theorem test_meets_HardResetAndRelease : (held base).pins.rst = true ∧ base.pins.rst = false := by decide

theorem test_meets_EngineResetEnds :
    (base.Running ∧ base.window.resetting = false ∧ base.sbi.inFlight = none)
    ∧ (resetting (carrying .engine wordAccess base)).Running
    ∧ (resetting (carrying .engine wordAccess base)).window.resetting = true
    ∧ (resetting (carrying .walker wordAccess base)).sbi.inFlight = some (.walker, wordAccess)
    ∧ (let s := fun (v : Service) (g : BeatStage) =>
         resetting (carrying .engine wordAccess (atStage g none none (serving (.channel 3) v base)))
       ((s .fetch .check).Running ∧ (s .fetch .check).window.resetting = true
          ∧ (s .fetch .check).sbi.inFlight = some (.engine, wordAccess) ∧ (s .fetch .check).engine.service = .fetch)
        ∧ ((s .move .read).engine.service = .move ∧ (s .move .read).engine.stage = .read)
        ∧ (s .move .write).engine.stage = .write ∧ (s .writeback .check).engine.service = .writeback)
    ∧ (let s := resetting (carrying .urgent wordAccess base)
       let d := inMode .urgentEntry s
       s.sbi.inFlight = some (.urgent, wordAccess) ∧ (inMode .urgentRestore s).urgent.mode = .urgentRestore
        ∧ ({ d with urgent := { d.urgent with step := .save } } : State).urgent.step = .save) := by decide

theorem test_meets_EngineResetWaits :
    (carrying .walker wordAccess base).Running ∧ (carrying .walker wordAccess base).window.resetting = false
    ∧ (carrying .walker wordAccess base).sbi.inFlight = some (.walker, wordAccess)
    ∧ (resetting base).Running ∧ (resetting base).window.resetting = true := by decide

theorem test_meets_HostWritesAndRowsAgree :
    (Instr.registerWrite 0x3F#6 1#16).wellFormed = true ∧ (Instr.registerWrite 0x3F#6 1#16).asWrite = some (0x3F#6, 1#16)
    ∧ (Instr.probe 0xFF#8).wellFormed = true ∧ (Instr.probe 0xFF#8).asWrite = some (0x02#6, 0xFF06#16) := by decide

theorem test_meets_RegisterWritesStoreOrVanish :
    base.Running ∧ (∀ r ∈ [0x00#6, 0x03#6, 0x04#6, 0x07#6, 0x0C#6, 0x3F#6], (Instr.registerWrite r 9#16).wellFormed = true)
    ∧ (Instr.registerWrite 0x01#6 0#16).wellFormed = true := by decide

theorem test_meets_RegistersShowTheState :
    base.queue.length ≤ 12 ∧ base.queue = []
    ∧ (withQueue (List.replicate 12 (record 1)) base).queue.length ≤ 12
    ∧ (withQueue [record 1] base).queue = record 1 :: [] := by decide

theorem test_meets_SelectorWrites_and_CausesFlags_and_Bus : base.Running := by decide

theorem test_meets_CommandsTakenOrRefused :
    base.TakesCommands ∧ (Instr.unknownCommandCode 0x0000#16).wellFormed = true
    ∧ (Instr.unknownCommandCode 0xFFFF#16).wellFormed = true
    ∧ (resetting base).Running ∧ (resetting base).window.resetting = true
    ∧ ({ base with window := { base.window with busy := true } } : State).Running := by decide

theorem test_meets_DomOpenOpensDomCloseCloses :
    let s := withArgs 15 0 0 0 base
    let t := withArgs 6 0 0 0 (withDomain 6 (withChannel 3 (copying .done .writeback) base))
    (s.TakesCommands ∧ s.urgent.mode = .normal ∧ s.window.args.arg0.toNat = (15 : DomainId).val
      ∧ s.domains[15].state = .closed ∧ ¬ (s.domains[15].trackUsed = false ∧ s.domains[15].trackWritten = true))
    ∧ t.TakesCommands ∧ t.urgent.mode = .normal ∧ t.window.args.arg0.toNat = (6 : DomainId).val
      ∧ t.domains[6].state = .opened
      ∧ ∀ c : ChannelId, t.channels[c].domain = 6 → t.channels[c].state = .idle ∨ t.channels[c].state = .done := by
  decide

theorem test_meets_DomainAndProbeRefusals :
    let s := withArgs 0 0 64 4 base
    let t := withArgs 6 0 63 3 (withDomain 6 (withChannel 3 (copying .halted .move) base))
    let w := { base with domains := base.domains.set 0 { DomainRecord.reset with trackWritten := true } }
    (s.TakesCommands ∧ s.urgent.mode = .normal ∧ s.window.args.arg0.toNat = (0 : DomainId).val
      ∧ 64 ≤ s.window.args.arg2.toNat ∧ 4 ≤ s.window.args.arg3.toNat ∧ s.domains[0].state = .closed)
    ∧ (t.TakesCommands ∧ t.domains[6].state = .opened ∧ t.channels[3].domain = 6 ∧ t.channels[3].state ≠ .idle
      ∧ t.channels[3].state ≠ .done ∧ t.window.args.arg2.toNat < 64 ∧ t.window.args.arg3.toNat < 4)
    ∧ (w.TakesCommands ∧ w.domains[0].state = .closed ∧ w.domains[0].trackUsed = false
      ∧ w.domains[0].trackWritten = true)
    ∧ (inMode .locked base).urgent.mode ≠ .normal ∧ 16 ≤ (withArgs 16 0 0 0 base).window.args.arg0.toNat := by decide

theorem test_meets_DomainFieldWrites_and_GrantWordWrites :
    base.Running ∧ base.domains[base.window.tselDomain].state = .closed
    ∧ (withDomain 0 base).domains[base.window.tselDomain].state = .opened := by decide

theorem test_meets_OpenDomainsAreFrozen :
    (withDomain 0 base).domains[(0 : DomainId)].state = .opened ∧ (Instr.domainFieldWrite .plim 7).wellFormed = true
    ∧ (∃ t, exec (.domainFieldWrite .plim 7) (withDomain 0 base) = .next t)
    ∧ Instr.domainFieldWrite .plim 7 ≠ .hardReset ∧ ∀ hi, Instr.domainFieldWrite .plim 7 ≠ .domClose hi :=
  ⟨by decide, by decide, ⟨_, rfl⟩, by decide, fun _ h => Instr.noConfusion h⟩

theorem test_meets_InvAll_and_InvDomainAndPage :
    let s := withArgs 15 0xFFFF 63 0 base
    s.TakesCommands ∧ s.window.args.arg0.toNat = (15 : DomainId).val ∧ s.window.args.arg2.toNat < 64
    ∧ (0x3FFFFF#22).toNat = s.window.args.arg2.toNat * 65536 + s.window.args.arg1.toNat
    ∧ 64 ≤ (withArgs 0 0 64 0 base).window.args.arg2.toNat ∧ 16 ≤ (withArgs 16 0 0 0 base).window.args.arg0.toNat := by
  decide

theorem test_meets_ProbeAnswersOrAsks :
    let s := withArgs 6 0x5C3E 0x000A 3 (withDomain 6 base)
    (s.TakesCommands ∧ s.urgent.mode = .normal ∧ s.window.args.arg0.toNat = (6 : DomainId).val
      ∧ s.window.args.arg2.toNat < 64
      ∧ (0x0A5C3E#22).toNat = s.window.args.arg2.toNat * 65536 + s.window.args.arg1.toNat
      ∧ s.window.args.arg3.toNat = 3 ∧ s.domains[6].state = .opened)
    ∧ hitWay s.cache[setOf (vpnOf 0x0A5C3E#22)] 6 (vpnOf 0x0A5C3E#22) = none
    ∧ hitWay (withEntry 2 6 331 0x91 true s).cache[setOf (vpnOf 0x0A5C3E#22)] 6 (vpnOf 0x0A5C3E#22) = some 2 := by decide

theorem test_meets_MarksLawKept_and_TagsLawKept :
    let s := { withEntry 2 6 331 0x91 true (withEntry 1 5 331 0x90 true base) with pending := [.invAll 0] }
    MarksLaw s ∧ TagsLaw s ∧ ∃ t, step s = .next t :=
  ⟨by unfold MarksLaw; decide, by unfold TagsLaw; decide, _, rfl⟩

/-- Channel 3 in a paced INGEST whose read of port 40H is in flight, with a page of its domain cached. -/
def portReading : State :=
  let a : Access := { space := .port, width := .word, address := 0x40, write := none }
  let s := withPorts 3 (withDomain 6 (withEntry 2 6 331 0x91 true (withChannel 3 (ingesting .active .move) base)))
  { carrying .engine a (atStage .read none (some 0x048C44) (serving (.channel 3) .move s)) with pending := [.invAll 0] }

theorem test_meets_ConfinementLawKept : ConfinementLaw portReading ∧ ∃ t, step portReading = .next t := by
  have served : ∀ c : ChannelId, portReading.engine.server = .channel c → c = 3 := fun c h =>
    (Server.channel.inj (show Server.channel 3 = Server.channel c from h)).symm
  refine ⟨⟨⟨Or.inr (by decide), by decide⟩, by unfold OpenTagsLaw; decide, fun c a h h' _ => ?_, by unfold BoundLaw; decide,
    ⟨fun h => absurd h (by decide), fun _ _ => rfl, fun _ _ => rfl, ?_, fun _ _ => rfl, fun r h => ?_⟩, fun c _ h => ?_⟩,
    _, rfl⟩
  · cases served c h
    cases h'
    decide
  · rintro (⟨a, h⟩ | h)
    · cases h
    · exact absurd rfl h
  · exact absurd (show none = some r from h) (by simp)
  · cases served c h
    exact ⟨fun _ h => absurd rfl h, fun h => absurd h (by decide), fun h => absurd h (by decide)⟩

theorem test_meets_LookupAnswers :
    let s := withDomain 6 (withEntry 2 6 331 0x91 false base)
    let k := withDomain 6 (withEntry 2 6 331 0x91 true base)
    let i := setOf (vpnOf 0x0A5C3E#22)
    let full := withEntry 0 1 11 0 true (withEntry 1 1 27 0 true (withEntry 2 1 43 0 true (withEntry 3 1 59 0 true base)))
    let t := full.cache[(11 : Fin 16)].set 3 { full.cache[(11 : Fin 16)][3] with referenced := false }
    (hitWay s.cache[i] 6 (vpnOf 0x0A5C3E#22) = some 2 ∧ s.cache[i][(2 : Fin 4)].writable = true
      ∧ s.cache[i][(2 : Fin 4)].writtenKnown = false ∧ s.domains[6].trackWritten = true)
    ∧ k.cache[i][(2 : Fin 4)].writtenKnown = true
    ∧ hitWay s.cache[i] 5 (vpnOf 0x0A5C3E#22) = none
    ∧ s.urgent.mode = .normal ∧ (inMode .urgentEntry s).urgent.mode ≠ .normal
    ∧ ((∃ w : Fin 4, s.cache[i][w].referenced = false)
      ∧ ∀ w w' : Fin 4, s.cache[i][w].hits 6 331 = true → s.cache[i][w'].hits 6 331 = true → w = w')
    ∧ t[(3 : Fin 4)].referenced = false ∧ (∀ k : Fin 4, t[k].valid = true)
    ∧ ∀ w w' : Fin 4, t[w].hits 6 331 = true → t[w'].hits 6 331 = true → w = w' := by decide

theorem test_meets_WalkStartChecksLimit :
    let asks := fun (q : WalkRequest) (v : Service) (x : Channel) => withDomain 6
      (withWalker (fun w => { w with engineWaiting := some q }) (serving (.channel 3) v (withChannel 3 x base)))
    let far : WalkRequest := { firstRead with vaddr := 0x0C0000 }
    let s := asks firstRead .writeback (copying .active .writeback)
    let p := withDomain 6 (withWalker (fun w => { w with probeWaiting := some far }) base)
    let f := withWalker (fun w => { w with probeWaiting := some far })
      (asks { far with access := .fetch } .fetch (copying .active .fetch))
    let b := asks far .move (copying .active .move)
    let m := asks { far with access := .write } .move (ingesting .active .move)
    (s.Running ∧ s.walker.state = .idle ∧ s.urgent.mode = .normal ∧ s.window.resetting = false
      ∧ s.walker.engineWaiting = some firstRead ∧ vpnOf firstRead.vaddr ≤ s.domains[6].pageLimit
      ∧ s.Serving (.channel 3) .writeback)
    ∧ (p.walker.engineWaiting = none ∧ p.walker.probeWaiting = some far
      ∧ p.domains[6].pageLimit < vpnOf 0x0C0000#22 ∧ ¬ p.domains[6].pageLimit < vpnOf 0x0BFFFF#22)
    ∧ (f.Running ∧ f.walker.engineWaiting = some { far with access := .fetch } ∧ f.domains[6].pageLimit < vpnOf far.vaddr
      ∧ f.Serving (.channel 3) .fetch ∧ f.walker.probeWaiting = some far)
    ∧ (b.walker.engineWaiting = some far ∧ b.Serving (.channel 3) .move ∧ b.channels[3].control.toNat % 4 = 0
      ∧ b.engine.readAt = none)
    ∧ m.Serving (.channel 3) .move ∧ ¬ (m.channels[3].control.toNat % 4 = 0 ∨ m.channels[3].control.toNat % 4 = 2)
    ∧ (asks { far with access := .writeback } .writeback (copying .active .writeback)).domains[6].pageLimit
        < vpnOf far.vaddr := by decide

theorem test_meets_WalkReadsTheTables :
    let d := carrying .walker wordAccess (walking .dirRead false base)
    let e := carrying .walker wordAccess (walking .dirRead true base)
    let f := carrying .walker wordAccess (walking .pageRead false base)
    let g := carrying .walker wordAccess (withWalker
      (fun w => { w with request := { firstRead with access := .write } }) (walking .pageRead true base))
    (d.Carrying .walker wordAccess ∧ wordAccess.width = .word ∧ d.walker.stale = false ∧ d.walker.state = .dirRead
      ∧ d.walker.second = false)
    ∧ (e.walker.state = .dirRead ∧ e.walker.second = true ∧ e.walker.dirPresent = true)
    ∧ (f.walker.state = .pageRead ∧ f.walker.second = false)
    ∧ g.walker.state = .pageRead ∧ g.walker.second = true ∧ g.walker.pageLow.getLsbD 0 = true
      ∧ g.walker.pageLow.getLsbD 1 = true ∧ g.walker.readOnly = false ∧ g.walker.tracking = true
      ∧ g.walker.trackUsed = true ∧ g.walker.trackWritten = true ∧ g.walker.request.access = .write
      ∧ g.walker.pageLow.getLsbD 3 = false
    ∧ (let u := carrying .walker wordAccess (withWalker (fun w => { w with trackWritten := false })
         (walking .pageRead true base))
       u.walker.request.access = .read ∧ u.walker.tracking = true ∧ u.walker.trackUsed = true
        ∧ u.walker.pageLow.getLsbD 2 = false ∧ u.walker.trackWritten = false) := by decide

theorem test_meets_WalkEndsInItsOutcome :
    let asked : WalkRequest := { firstRead with access := .write }
    let probing := fun (st : WalkerState) (low : Word) => carrying .walker wordAccess (withWalker
      (fun w => { w with requester := .probe, tracking := false, dirPresent := false, pageLow := low, request := asked })
      (walking st true base))
    let engine := fun (st : WalkerState) (low : Word) => carrying .walker wordAccess (withWalker
      (fun w => { w with pageLow := low, request := asked })
      (walking st true (serving (.channel 3) .writeback (withChannel 3 (copying .active .writeback) base))))
    ((probing .dirRead 0).Carrying .walker wordAccess ∧ (probing .dirRead 0).walker.requester = .probe
      ∧ (probing .dirRead 0).walker.stale = false ∧ (probing .dirRead 0).walker.dirPresent = false)
    ∧ (probing .pageRead 0).walker.pageLow.getLsbD 0 = false
    ∧ ((probing .pageRead 1).walker.pageLow.getLsbD 0 = true ∧ (probing .pageRead 1).walker.pageLow.getLsbD 1 = false)
    ∧ ((probing .pageRead 3).walker.pageLow.getLsbD 1 = true ∧ (probing .pageRead 3).walker.readOnly = false
      ∧ (probing .pageRead 3).walker.tracking = false)
    ∧ ((engine .pageUpdate 0x8803).Carrying .walker wordAccess ∧ (engine .pageUpdate 0x8803).walker.requester = .engine
      ∧ (engine .pageUpdate 0x8803).walker.state = .pageUpdate)
    ∧ ((engine .pageRead 0x880F).walker.state = .pageRead ∧ (engine .pageRead 0x880F).walker.second = true
      ∧ (engine .pageRead 0x880F).walker.pageLow.getLsbD 0 = true ∧ (engine .pageRead 0x880F).walker.pageLow.getLsbD 1 = true
      ∧ (engine .pageRead 0x880F).walker.pageLow.getLsbD 2 = true ∧ (engine .pageRead 0x880F).walker.pageLow.getLsbD 3 = true
      ∧ (engine .pageRead 0x880F).Serving (.channel 3) .writeback)
    ∧ (engine .pageRead 0).walker.pageLow.getLsbD 0 = false
    ∧ ((engine .pageRead 1).walker.pageLow.getLsbD 1 = false ∧ (engine .pageRead 1).walker.request.access = .write)
    ∧ (withWalker (fun w => { w with dirPresent := false }) (engine .dirRead 0)).walker.dirPresent = false := by decide

/-- The walk of `firstRead` ends with a translation, for an action of channel 3; a probe waits. -/
def answering (v : Service) (readAt : Option PAddr) (x : Channel) : State :=
  carrying .walker wordAccess (withWalker (fun w => { w with probeWaiting := some firstRead })
    (walking .pageUpdate false (atStage .check readAt none (serving (.channel 3) v (withDomain 6 (withChannel 3 x base))))))

theorem test_meets_WalkEndsInItsOutcome_services :
    let f := answering .fetch none (copying .active .fetch)
    let c := answering .move none (copying .active .move)
    let d := answering .move (some 0x048C3E) (copying .active .move)
    let e := answering .move none (emitting .active .move)
    let i := answering .move none (ingesting .active .move)
    let l := answering .move none { copying .active .move with control := 0x07 }
    (f.Carrying .walker wordAccess ∧ f.walker.stale = false ∧ f.walker.requester = .engine ∧ f.walker.state = .pageUpdate
      ∧ f.walker.probeWaiting = some firstRead ∧ f.Serving (.channel 3) .fetch)
    ∧ (c.Serving (.channel 3) .move ∧ c.channels[3].control.toNat % 4 = 0 ∧ c.engine.readAt = none ∧ c.urgent.mode = .normal)
    ∧ (inMode .urgentEntry c).urgent.mode ≠ .normal
    ∧ (d.channels[3].control.toNat % 4 = 0 ∧ d.engine.readAt = some 0x048C3E)
    ∧ (e.channels[3].control.toNat % 4 = 2 ∧ e.engine.readAt = none
      ∧ (withPorts 0x30 e).PortsGranted 6 .word 0x44 ∧ ¬ e.PortsGranted 6 .word 0x44)
    ∧ i.channels[3].control.toNat % 4 = 1 ∧ l.channels[3].control.toNat % 4 = 3 := by decide

theorem test_meets_StaleWalkBeginsAgain :
    let s := carrying .walker wordAccess (withDomain 6 (withWalker (fun w => { w with stale := true, probeWaiting := some firstRead })
      (walking .pageRead true (serving (.channel 3) .fetch (withChannel 3 (copying .active .fetch) base)))))
    (s.Carrying .walker wordAccess ∧ s.walker.stale = true ∧ s.urgent.mode = .normal
      ∧ vpnOf s.walker.request.vaddr ≤ s.domains[s.walker.request.domain].pageLimit)
    ∧ (inMode .urgentEntry s).urgent.mode ≠ .normal ∧ s.walker.requester = .engine
    ∧ s.engine.server = .channel 3 ∧ s.engine.service ≠ .none ∧ s.walker.probeWaiting = some firstRead := by decide

theorem test_meets_NoWalkStartsOutsideNormal :
    (inMode .urgentRun base).urgent.mode ≠ .normal ∧ (inMode .urgentRun base).walker.state = .idle
    ∧ ∃ t, exec .walkStart (inMode .urgentRun base) = .next t := ⟨by decide, by decide, _, rfl⟩

theorem test_meets_ChStartStarts :
    let s := withArgs 7 0x730F 0xFFF0 0x103F (withDomain 15 base)
    let t := withArgs 7 0xF30F 0xFFF0 0x013F (withDomain 15 base)
    (s.TakesChannel 7 ∧ s.channels[7].state = .idle ∧ s.window.args.arg1.toNat % 256 = (15 : DomainId).val
      ∧ s.window.args.arg1.toNat / 1024 % 4 = 0 ∧ s.window.args.arg1.toNat / 4096 = 7
      ∧ 1 ≤ s.window.args.arg3.toNat / 256 ∧ s.window.args.arg3.toNat / 256 ≤ 16
      ∧ s.window.args.arg3.toNat / 64 % 4 = 0 ∧ s.window.args.arg2.toNat % 16 = 0 ∧ s.domains[15].state = .opened)
    ∧ t.window.args.arg1.toNat / 4096 = 15 ∧ t.window.args.arg3.toNat / 256 = 1 := by decide

theorem test_meets_channel_commands :
    let s := fun (st : ChannelState) (ph : Phase) => withArgs 7 0 0 0 (withChannel 7 (copying st ph) base)
    (∀ st ph, (s st ph).TakesChannel 7)
    ∧ (s .ready .move).channels[7].state = .ready ∧ (s .active .move).channels[7].state = .active
    ∧ (s .halted .move).channels[7].phase = .move ∧ (s .faulted .writeback).channels[7].phase = .writeback
    ∧ (s .halted .fetch).channels[7].phase = .fetch ∧ (s .halted .move).channels[7].control.getLsbD 3 = false := by
  exact ⟨fun st ph => by cases st <;> cases ph <;> decide, by decide⟩

theorem test_meets_ChSkipSkips_end :
    let s := withArgs 7 0 0 0 (withChannel 7 { copying .halted .writeback with control := 0x0C } base)
    s.TakesChannel 7 ∧ s.channels[7].state = .halted ∧ s.channels[7].phase = .writeback
    ∧ s.channels[7].control.getLsbD 3 = true := by decide

theorem test_meets_ChannelCommandRefusals :
    let s := fun (a1 a2 a3 : Word) => withArgs 7 a1 a2 a3 base
    ((s 0 0 0x100).TakesCommands ∧ (s 0 0 0x100).TakesChannel 7 ∧ (s 0 0 0x100).channels[7].state = .idle)
    ∧ 8 ≤ (withArgs 8 0 0 0 base).window.args.arg0.toNat ∧ (inMode .urgentHold base).urgent.mode ≠ .normal
    ∧ 16 ≤ (s 0x0010 0 0x100).window.args.arg1.toNat % 256
    ∧ (s 0x8000 0 0x100).window.args.arg1.toNat / 4096 = 8 ∧ (s 0xE000 0 0x100).window.args.arg1.toNat / 4096 = 14
    ∧ (s 0 0 0).window.args.arg3.toNat / 256 = 0 ∧ 16 < (s 0 0 0x1100).window.args.arg3.toNat / 256
    ∧ (s 0 8 0x100).window.args.arg2.toNat % 16 ≠ 0 ∧ (s 0x0400 0 0x100).window.args.arg1.toNat / 1024 % 4 ≠ 0
    ∧ (s 0 0 0x140).window.args.arg3.toNat / 64 % 4 ≠ 0 ∧ (s 0 0 0x100).domains[0].state = .closed := by decide

theorem test_meets_FqPopWakesLowestWaiting :
    let s := withQueue (List.replicate 12 (record 1)) base
    let t := withChannel 5 { copying .faultWait .move with held := some (record 5) } s
    (base.TakesCommands ∧ base.urgent.mode = .normal ∧ base.queue = [])
    ∧ (s.queue = record 1 :: List.replicate 11 (record 1) ∧ ∀ c : ChannelId, s.channels[c].state ≠ .faultWait)
    ∧ t.channels[5].state = .faultWait ∧ t.channels[5].held = some (record 5)
    ∧ ∀ c : ChannelId, c < 5 → t.channels[c].state ≠ .faultWait := by decide

/-- The Engine in a move service, the fault queue full and a channel in FAULT_WAIT. -/
def crowded : State :=
  let x : Channel := { copying .faultWait .move with held := some (record 5) }
  let s := withQueue (List.replicate 12 (record 1)) (withChannel 5 x (withChannel 3 (copying .active .move) base))
  { serving (.channel 3) .move s with pending := [.fqPop 0] }

theorem test_meets_QueueLawKept_and_LatchLawKept :
    QueueLaw crowded ∧ LatchLaw (latched .line (inMode .urgentHold crowded)) ∧ ∃ t, step crowded = .next t :=
  ⟨by unfold QueueLaw; decide, by unfold LatchLaw; decide, _, rfl⟩

theorem test_meets_ServiceLawKept_and_CountsLawKept : ServiceLaw crowded ∧ CountsLaw crowded :=
  have h : ServiceLaw crowded := ⟨Or.inr (by decide), by decide⟩
  ⟨h, h, by decide, by decide⟩

theorem test_meets_SchedulerGrantsByClassAndTurn :
    let s := withDomain 6 (withEntry 0 6 9 0x010 true (withChannel 1 { copying .ready .move with priority := 2 }
      (withChannel 0 { copying .ready .fetch with priority := 2 } (withChannel 3 (copying .ready .fetch) base))))
    (s.Running ∧ s.engine.service = .none ∧ s.urgent.mode = .normal ∧ s.window.resetting = false
      ∧ s.channels[0].state = .ready
      ∧ (∀ n : ChannelId, s.channels[n].state = .ready → s.channels[n].priority ≤ s.channels[0].priority)
      ∧ (∀ n : ChannelId, s.channels[n].state = .ready → s.channels[n].priority = s.channels[0].priority →
        (0 : ChannelId) - s.pointers[s.channels[0].priority] - 1 ≤ n - s.pointers[s.channels[0].priority] - 1)
      ∧ s.channels[0].phase = .fetch ∧ s.channels[0].descriptor.toNat % 16 = 0
      ∧ s.channels[0].descriptor.toNat ≤ 0x3FFFF0
      ∧ hitWay s.cache[setOf (vpnOf (virtualOf s.channels[0].descriptor))] 6
          (vpnOf (virtualOf s.channels[0].descriptor)) = some 0)
    ∧ ∀ c : ChannelId, base.channels[c].state ≠ .ready := by decide

theorem test_meets_SchedulerGrantsByClassAndTurn_services :
    let s := fun (x : Channel) => withDomain 6 (withEntry 2 6 331 0x91 true (withEntry 0 6 9 0x010 true (withChannel 3 x base)))
    let w := s (copying .ready .writeback)
    let c := s (copying .ready .move)
    let f := s { copying .ready .move with control := 0x07 }
    let l := s (ingesting .ready .move)
    let b := s { copying .ready .fetch with descriptor := 0x400000#32 }
    let v := (w.channels[3].descriptor.extractLsb' 0 22 + 1 : VAddr)
    ((∀ n : ChannelId, w.channels[n].state = .ready → n = 3) ∧ w.channels[3].phase = .writeback
      ∧ hitWay w.cache[setOf (vpnOf v)] 6 (vpnOf v) = some 0
      ∧ w.cache[setOf (vpnOf v)][(0 : Fin 4)].writable = true ∧ w.cache[setOf (vpnOf v)][(0 : Fin 4)].writtenKnown = true)
    ∧ (c.channels[3].phase = .move ∧ 1 ≤ c.channels[3].remaining.toNat ∧ 1 ≤ c.channels[3].burst.toNat
      ∧ c.channels[3].control.toNat % 4 = 0
      ∧ hitWay c.cache[setOf (vpnOf 0x0A5C3E#22)] 6 (vpnOf 0x0A5C3E#22) = some 2
      ∧ hitWay c.cache[setOf (vpnOf 0x0A5C40#22)] 6 (vpnOf 0x0A5C40#22) = some 2
      ∧ c.cache[setOf (vpnOf 0x0A5C40#22)][(2 : Fin 4)].writtenKnown = true)
    ∧ f.channels[3].control.toNat % 4 = 3
    ∧ (b.channels[3].phase = .fetch ∧ ¬ b.channels[3].descriptor.toNat ≤ 0x3FFFF0)
    ∧ l.channels[3].control.toNat % 4 = 1 ∧ l.channels[3].line = some 2 ∧ (0#8).getLsbD 2 = false ∧ l.NoPending 3 := by
  decide

/-- Lookups of a granted service that do not hit as they stand: none cached, read-only, and Written not known. -/
theorem test_meets_SchedulerGrantsByClassAndTurn_walks :
    let s := fun (x : Channel) => withDomain 6 (withChannel 3 x base)
    let f := s (copying .ready .fetch)
    let w := s (copying .ready .writeback)
    let m := s (copying .ready .move)
    let v : VAddr := 0x4A01
    (f.channels[3].phase = .fetch ∧ f.channels[3].descriptor.toNat % 16 = 0 ∧ f.urgent.mode = .normal
      ∧ hitWay f.cache[setOf (vpnOf 0x4A00#22)] 6 (vpnOf 0x4A00#22) = none)
    ∧ (w.channels[3].phase = .writeback ∧ hitWay w.cache[setOf (vpnOf v)] 6 (vpnOf v) = none)
    ∧ (hitWay (withReadOnly 9 w).cache[setOf (vpnOf v)] 6 (vpnOf v) = some 2
      ∧ (withReadOnly 9 w).cache[setOf (vpnOf v)][(2 : Fin 4)].writable = false)
    ∧ (hitWay (withEntry 2 6 9 0x010 false w).cache[setOf (vpnOf v)] 6 (vpnOf v) = some 2
      ∧ (withEntry 2 6 9 0x010 false w).cache[setOf (vpnOf v)][(2 : Fin 4)].writable = true
      ∧ (withEntry 2 6 9 0x010 false w).cache[setOf (vpnOf v)][(2 : Fin 4)].writtenKnown = false
      ∧ w.domains[6].trackWritten = true)
    ∧ (m.channels[3].phase = .move ∧ m.channels[3].line = none
      ∧ hitWay m.cache[setOf (vpnOf 0x0A5C3E#22)] 6 (vpnOf 0x0A5C3E#22) = none) := by decide

theorem test_schedulerGrant_writeback_denied :
    ((after (.schedulerGrant 0) (withReadOnly 9 (withDomain 6 (withChannel 3 (copying .ready .writeback) base)))).queue.map
      (fun r => (r.kind, r.access, r.address))) = [(.writeDenied, .writeback, 0x4A01)] := by decide

theorem test_meets_PortBeatsNeedTheGrant :
    let s := fun (w : Word) => withPorts w (withEntry 2 6 331 0x91 true (withChannel 3
      { ingesting .ready .move with line := none } base))
    let e := fun (w : Word) => withPorts w (withEntry 2 6 331 0x91 true (withChannel 3 (emitting .ready .move) base))
    ((s 3).Running ∧ (s 3).engine.service = .none ∧ (s 3).urgent.mode = .normal ∧ (s 3).window.resetting = false
      ∧ (s 3).channels[3].state = .ready ∧ (∀ n : ChannelId, n ≠ 3 → (s 3).channels[n].state ≠ .ready)
      ∧ (s 3).channels[3].phase = .move ∧ 1 ≤ (s 3).channels[3].remaining.toNat
      ∧ 1 ≤ (s 3).channels[3].burst.toNat ∧ (s 3).channels[3].line = none
      ∧ (s 3).channels[3].control.toNat % 4 = 1 ∧ (s 3).channels[3].control.getLsbD 2 = true
      ∧ (s 3).portGranted 6 0x40 = true ∧ (s 3).portGranted 6 0x41 = true
      ∧ hitWay (s 3).cache[setOf (vpnOf 0x0A5C40#22)] 6 (vpnOf 0x0A5C40#22) = some 2
      ∧ (s 3).cache[setOf (vpnOf 0x0A5C40#22)][(2 : Fin 4)].writable = true
      ∧ (s 3).cache[setOf (vpnOf 0x0A5C40#22)][(2 : Fin 4)].writtenKnown = true)
    ∧ (s 1).portGranted 6 0x41 = false
    ∧ ((e 0x30).channels[3].control.toNat % 4 = 2 ∧ (e 0x30).portGranted 6 0x44 = true
      ∧ (e 0x30).portGranted 6 0x45 = true
      ∧ hitWay (e 0x30).cache[setOf (vpnOf 0x0A5C3E#22)] 6 (vpnOf 0x0A5C3E#22) = some 2)
    ∧ (e 0x0F).portGranted 6 0x44 = false
    ∧ (let i := withPorts 3 (withChannel 3 (ingesting .ready .move) base)
       i.portGranted 6 0x40 = true ∧ i.portGranted 6 0x41 = true
        ∧ hitWay i.cache[setOf (vpnOf 0x0A5C40#22)] 6 (vpnOf 0x0A5C40#22) = none
        ∧ (withEntry 2 6 331 0x91 false i).cache[setOf (vpnOf 0x0A5C40#22)][(2 : Fin 4)].writtenKnown = false)
    ∧ hitWay base.cache[setOf (vpnOf 0x0A5C3E#22)] 6 (vpnOf 0x0A5C3E#22) = none
    ∧ (ingesting .ready .move).line = some 2 ∧ ∀ n : Fin 8, (ingesting .ready .move).line = some n → (4#8).getLsbD n.val = true
      := by decide

theorem test_meets_LineAssertedWakesItsChannels : (withChannel 3 (ingesting .waitReq .move) base).Running := by decide

theorem test_meets_FetchLoadsTheDescriptor :
    let u := carrying .engine wordAccess (running .fetch 0 base)
    let s := carrying .engine wordAccess (serving (.channel 3) .fetch (withChannel 3 (copying .active .fetch) base))
    let d : Descriptor := { control := 0x15, count := 24, source := 0x42, dest := 0x0A5C40, next := 0x4A40 }
    (u.Carrying .engine wordAccess ∧ u.engine.service = .fetch ∧ u.engine.server = .urgent ∧ u.engine.fetched.length < 7)
    ∧ (s.Carrying .engine wordAccess ∧ wordAccess.width = .word ∧ s.engine.service = .fetch
      ∧ s.engine.server = .channel 3 ∧ s.engine.fetched.length < 7 ∧ s.urgent.mode = .normal
      ∧ hitWay s.cache[setOf (vpnOf 0x4A02#22)] 6 (vpnOf 0x4A02#22) = none
      ∧ hitWay (withEntry 0 6 9 0x010 true s).cache[setOf (vpnOf 0x4A02#22)] 6 (vpnOf 0x4A02#22) = some 0)
    ∧ (inMode .urgentEntry s).urgent.mode ≠ .normal
    ∧ d.formatOk (.channel 3) = true ∧ ({ d with count := 0 } : Descriptor).formatOk (.channel 3) = false
    ∧ d.formatOk .urgent = true ∧ ({ d with count := 0 } : Descriptor).formatOk .urgent = false := by decide

theorem test_meets_DescriptorChecksInNumbers :
    (0x04#8).toNat % 4 = 0 ∧ (0x15#8).toNat % 4 = 1 ∧ (0x06#8).toNat % 4 = 2 ∧ (0x07#8).toNat % 4 = 3 := by decide

theorem test_meets_BeatReadIssuesTheWrite :
    let s := fun (x : Channel) => carrying .engine wordAccess (atStage .read none (some 0x048C44)
      (serving (.channel 3) .move (withChannel 3 x base)))
    let i := s (ingesting .active .move)
    let e := s (emitting .active .move)
    (i.Carrying .engine wordAccess ∧ i.engine.service = .move ∧ i.engine.stage = .read
      ∧ i.element.control.toNat % 4 ≠ 2 ∧ i.engine.writeAt = some 0x048C44)
    ∧ e.element.control.toNat % 4 = 2 := by decide

theorem test_meets_BeatWriteMovesTheElement :
    let s := fun (x : Channel) => carrying .engine wordAccess (atStage .write none (some 0x048C44)
      (serving (.channel 3) .move (withChannel 3 x base)))
    let i := s (ingesting .active .move)
    (i.Carrying .engine wordAccess ∧ i.Serving (.channel 3) .move ∧ i.engine.stage = .write
      ∧ 1 ≤ i.channels[3].remaining.toNat ∧ i.NoPending 3 ∧ i.channels[3].remaining ≠ 1 ∧ (4#8).getLsbD 2 = true
      ∧ i.engine.beats + 1 ≠ i.channels[3].burst ∧ i.urgent.mode = .normal ∧ i.channels[3].control.toNat % 4 = 1
      ∧ i.channels[3].line = some 2 ∧ (0#8).getLsbD 2 = false ∧ i.engine.beats + 1 ≠ 0)
    ∧ (s { ingesting .active .move with remaining := 1 }).channels[3].remaining = 1
    ∧ (s { ingesting .active .move with burst := 1 }).engine.beats + 1 = 1
    ∧ (s { ingesting .active .move with pendingHalt := true }).channels[3].pendingAbort = false
    ∧ (s { ingesting .active .move with pendingAbort := true }).channels[3].pendingAbort = true
    ∧ (inMode .urgentEntry i).urgent.mode ≠ .normal
    ∧ (let f := withEntry 2 6 331 0x91 true (s { copying .active .move with control := 0x07 })
       f.channels[3].control.toNat % 4 = 3 ∧ f.NoPending 3 ∧ f.engine.beats + 1 ≠ f.channels[3].burst
        ∧ hitWay f.cache[setOf (vpnOf 0x0A5C42#22)] 6 (vpnOf 0x0A5C42#22) = some 2
        ∧ f.cache[setOf (vpnOf 0x0A5C42#22)][(2 : Fin 4)].writable = true
        ∧ f.cache[setOf (vpnOf 0x0A5C42#22)][(2 : Fin 4)].writtenKnown = true) := by decide

theorem test_meets_BeatWriteMovesTheElement_next_beat :
    let s := fun (x : Channel) => withDomain 6 (carrying .engine wordAccess (atStage .write none (some 0x048C44)
      (serving (.channel 3) .move (withChannel 3 x base))))
    let v : VAddr := 0x0A5C42
    let c := s (copying .active .move)
    let e := withPorts 0x30 (s (emitting .active .move))
    let i := withPorts 3 (s (ingesting .active .move))
    (c.Carrying .engine wordAccess ∧ c.Serving (.channel 3) .move ∧ c.engine.stage = .write ∧ c.NoPending 3
      ∧ c.channels[3].remaining ≠ 1 ∧ c.engine.beats + 1 ≠ c.channels[3].burst ∧ c.channels[3].control.toNat % 4 = 0
      ∧ hitWay c.cache[setOf (vpnOf v)] 6 (vpnOf v) = none)
    ∧ hitWay (withEntry 2 6 331 0x91 true c).cache[setOf (vpnOf v)] 6 (vpnOf v) = some 2
    ∧ ((withEntry 2 6 331 0x91 false c).cache[setOf (vpnOf v)][(2 : Fin 4)].writtenKnown = false
      ∧ (withEntry 2 6 331 0x91 false c).cache[setOf (vpnOf v)][(2 : Fin 4)].writable = true
      ∧ c.domains[6].trackWritten = true)
    ∧ ((withReadOnly 331 c).cache[setOf (vpnOf v)][(2 : Fin 4)].writable = false
      ∧ hitWay (withReadOnly 331 c).cache[setOf (vpnOf v)] 6 (vpnOf v) = some 2)
    ∧ (e.channels[3].control.toNat % 4 = 2 ∧ e.PortsGranted 6 .word 0x44 ∧ ¬ (withPorts 1 e).PortsGranted 6 .word 0x44)
    ∧ i.channels[3].control.toNat % 4 = 1 ∧ (4#8).getLsbD 2 = true ∧ i.PortsGranted 6 .word 0x40
    ∧ ¬ (withPorts 1 i).PortsGranted 6 .word 0x40 := by decide

theorem test_meets_BeatWriteMovesTheElement_urgent :
    let s := carrying .engine wordAccess (atStage .write none none (running .move 0x04 base))
    let u := fun (n : Word) => { s with urgent := { s.urgent with u := { s.urgent.u with remaining := n } } }
    ((u 2).Carrying .engine wordAccess ∧ (u 2).Serving .urgent .move ∧ (u 2).engine.stage = .write
      ∧ 1 ≤ (u 2).urgent.u.remaining.toNat ∧ (u 2).urgent.u.remaining ≠ 1)
    ∧ (u 1).urgent.u.remaining = 1 := by decide

/-- U's COPY writes at its own destination, one word further in its second beat. -/
theorem test_beatWriteEnd_urgent_copy :
    let s := carrying .engine wordAccess (atStage .write none none (running .move 0x04 base))
    let u := { s with urgent := { s.urgent with
      u := { s.urgent.u with remaining := 2, source := 0x123400#32, dest := 0x567800#32 } } }
    let t := after (.beatWriteEnd (.ready 0) 0) u
    t.sbi.inFlight = some (.engine, readWord 0x123402)
    ∧ (after (.beatReadEnd (.ready 7)) t).sbi.inFlight = some (.engine, writeWord 0x567802 7) := by decide

theorem test_meets_StatusWriteAdvances :
    let s := carrying .engine wordAccess (serving (.channel 3) .writeback (withChannel 3 (copying .active .writeback) base))
    let u := fun (control : Byte) => carrying .engine wordAccess (running .writeback control base)
    (s.Carrying .engine wordAccess ∧ s.engine.service = .writeback ∧ s.engine.server = .channel 3
      ∧ s.channels[3].control.getLsbD 3 = false ∧ (0x0C#8).getLsbD 3 = true)
    ∧ ((u 0x20).engine.server = .urgent ∧ (u 0x20).urgent.u.control.getLsbD 3 = false
      ∧ (u 0x20).urgent.u.control.getLsbD 5 = true)
    ∧ (u 0x00).urgent.u.control.getLsbD 5 = false ∧ (u 0x00).urgent.u.next.toNat % 16 = 0
    ∧ (u 0x00).urgent.u.next.toNat ≤ 0xFFFFF0
    ∧ ({ (u 0x00).urgent.u with next := 0x01000000#32 } : UContext).next.toNat % 16 = 0
    ∧ ¬ ({ (u 0x00).urgent.u with next := 0x01000000#32 } : UContext).next.toNat ≤ 0xFFFFF0 := by decide

theorem test_meets_UrgentChainEndDecides :
    let u := fun (control : Byte) => carrying .engine wordAccess (running .writeback control base)
    ((u 0x28).Carrying .engine wordAccess ∧ (u 0x28).Serving .urgent .writeback
      ∧ (u 0x28).urgent.u.control.getLsbD 3 = true ∧ (u 0x28).urgent.latch = none
      ∧ (u 0x28).urgent.u.control.getLsbD 5 = true)
    ∧ (u 0x08).urgent.u.control.getLsbD 5 = false
    ∧ (latched .command (u 0x08)).urgent.latch = some .command
    ∧ (u 0x08).urgent.listBase.toNat % 16 = 0
    ∧ (withList 0x000108 (latched .command (u 0x08))).urgent.listBase.toNat % 16 ≠ 0 := by decide

theorem test_meets_BusErrorsAreReported :
    let f := fun (v : Service) (g : BeatStage) => carrying .engine wordAccess (atStage g none none
      (serving (.channel 3) v (withChannel 3 (copying .active .move) base)))
    ((f .fetch .check).Carrying .engine wordAccess ∧ (f .fetch .check).engine.service = .fetch
      ∧ (f .fetch .check).engine.server = .channel 3)
    ∧ ((f .move .read).engine.service = .move ∧ (f .move .read).engine.stage = .read)
    ∧ (f .move .write).engine.stage = .write ∧ (f .writeback .check).engine.service = .writeback
    ∧ (running .fetch 0 base).engine.server = .urgent := by decide

theorem test_meets_UrgentRequestsActByMode :
    let s := { base with urgent := { base.urgent with armed := true } }
    let p := withWalker (fun w => { w with probeWaiting := some firstRead }) s
    (s.Running ∧ s.TakesCommands ∧ s.urgent.armed = true ∧ s.window.resetting = false ∧ s.urgent.mode = .normal
      ∧ s.walker.engineWaiting = none ∧ s.walker.probeWaiting = none)
    ∧ p.walker.probeWaiting = some firstRead
    ∧ (let e := withWalker (fun w => { w with engineWaiting := some firstRead })
          (serving (.channel 3) .move (withChannel 3 (copying .active .move) s))
       e.Running ∧ e.urgent.armed = true ∧ e.urgent.mode = .normal ∧ e.walker.engineWaiting = some firstRead
        ∧ e.walker.probeWaiting = none ∧ e.engine.server = .channel 3 ∧ e.engine.service ≠ .none ∧ e.TakesCommands
        ∧ (withWalker (fun w => { w with probeWaiting := some firstRead }) e).walker.probeWaiting = some firstRead
        ∧ (withWalker (fun w => { w with probeWaiting := some firstRead }) e).TakesCommands)
    ∧ ((inMode .urgentEntry s).urgent.mode ≠ .normal ∧ (inMode .urgentEntry s).urgent.mode ≠ .locked
      ∧ (inMode .urgentEntry s).urgent.latch = none)
    ∧ (latched .line (inMode .urgentRestore s)).urgent.latch ≠ none
    ∧ (inMode .locked s).urgent.mode = .locked ∧ base.urgent.armed = false := by decide

theorem test_meets_SaveWritesTheImage :
    let d := inMode .urgentEntry base
    let s := fun (n : Nat) => carrying .urgent wordAccess
      { d with urgent := { d.urgent with step := .save, saveProgress := n } }
    (d.Running ∧ d.window.resetting = false ∧ d.urgent.mode = .urgentEntry ∧ d.urgent.step = .drain
      ∧ d.engine.service = .none ∧ d.walker.state = .idle)
    ∧ ((s 0).Carrying .urgent wordAccess ∧ (s 0).urgent.mode = .urgentEntry ∧ (s 0).urgent.step = .save
      ∧ (s 0).urgent.saveProgress < 143)
    ∧ (s 142).urgent.saveProgress + 1 < (s 142).imageWords.length
    ∧ (s 143).urgent.saveProgress = 143 ∧ (s 143).urgent.listBase.toNat % 16 = 0
    ∧ (withList 0x000108 (s 143)).urgent.listBase.toNat % 16 ≠ 0 := by decide +kernel

theorem test_meets_RestoreReadsAndJudges :
    let s := fun (n : Nat) => carrying .urgent wordAccess (inMode .urgentRestore
      { base with urgent := { base.urgent with readProgress := n, image := base.imageWords.take n } })
    ((s 0).Carrying .urgent wordAccess ∧ wordAccess.width = .word ∧ (s 0).urgent.mode = .urgentRestore
      ∧ (s 0).urgent.readProgress < 143 ∧ (s 0).urgent.latch = none)
    ∧ (s 143).urgent.readProgress = 143
    ∧ ({ s 143 with urgent := { (s 143).urgent with image := (s 143).urgent.image ++ [0] } } : State).imageFault = none
    ∧ ({ s 143 with urgent := { (s 143).urgent with image := [0x47, 0, 0x100] } } : State).imageFault
        = some (.badRelocation, 8)
    ∧ (latched .line (s 143)).urgent.latch = some .line ∧ (s 143).engine.service = .none := by decide +kernel

/-- The image of channel 3 in a move, with word `i` changed, judged against the state that saved it. -/
def judged (i : Nat) (w : Word) : Option (LockKind × Nat) :=
  let s := withDomain 6 (withChannel 3 (copying .halted .move) base)
  ({ s with urgent := { s.urgent with image := s.imageWords.set i w } } : State).imageFault

theorem test_imageFault_in_each_way :
    judged 0 0x0047 = none
    ∧ judged 2 0x0100 = some (.badRelocation, 8)
    ∧ judged 64 0x0003 = some (.badStateCode, 3)
    ∧ judged 64 0x0001 = some (.badTransition, 3)
    ∧ judged 64 0x0304 = some (.badDisposition, 3)
    ∧ judged 78 0x0100 = none ∧ judged 64 0x0104 = none
    ∧ judged 69 0x0000 = some (.badContext, 3) ∧ judged 65 0xF005 = some (.badContext, 3)
    ∧ judged 16 0x0100 = some (.dispositionNotAllowed, 0) := by decide +kernel

theorem test_meets_ImageRecordsLoad :
    let r := imageRecord (withChannel 0 (copying .halted .move) base).imageWords 0
    let w := imageRecord (withChannel 0 { copying .faulted .writeback with control := 0x0C } base).imageWords 0
    (r.state.toNat = 4 ∧ (6 : DomainId).val = r.domain.toNat ∧ r.domain.toNat ≤ 15 ∧ r.priorityLine.toNat / 16 = 15
      ∧ (4#5).toNat = r.burst.toNat ∧ r.burst.toNat ≤ 16 ∧ r.phase.toNat = 1 ∧ r.code.toNat = 1
      ∧ r.disposition.toNat = 0)
    ∧ ({ r with disposition := 1 } : ImageRecord).disposition.toNat = 1
    ∧ ({ r with disposition := 2 } : ImageRecord).disposition.toNat = 2
    ∧ w.state.toNat = 5 ∧ w.phase.toNat = 2 ∧ w.control.getLsbD 3 = true
    ∧ ({ w with control := 0 } : ImageRecord).control.getLsbD 3 = false := by decide

theorem test_meets_UneditedImageRestoresItself :
    let s := withDomain 6 (withChannel 3 (ingesting .waitReq .move) (withChannel 2 (copying .done .writeback) base))
    let t := { s with urgent := { s.urgent with image := s.imageWords } }
    (∀ c : ChannelId, Restorable t c) ∧ t.urgent.saveBase.toNat % 0x200 = 0 ∧ t.urgent.image = t.imageWords :=
  ⟨by unfold Restorable; decide, by decide, rfl⟩

theorem test_meets_ResumeRerunsOrRestores :
    base.TakesCommands ∧ (latched .line (inMode .urgentHold base)).urgent.latch = some .line
    ∧ (inMode .urgentHold base).urgent.mode = .urgentHold ∧ (inMode .urgentHold base).urgent.latch = none
    ∧ base.urgent.listBase.toNat % 16 = 0 ∧ base.urgent.mode ≠ .urgentHold
    ∧ (withList 0x000108 (latched .line (inMode .urgentHold base))).urgent.listBase.toNat % 16 ≠ 0 := by decide

theorem test_meets_LockClearSweepsChannels :
    (inMode .locked base).TakesCommands ∧ (inMode .locked base).urgent.mode = .locked ∧ base.urgent.mode ≠ .locked := by
  decide

theorem test_meets_BaseWritesApplyInNormal :
    base.Running ∧ base.urgent.mode = .normal ∧ (0x00FF#16).toNat < 256 ∧ 256 ≤ (0x0100#16).toNat
    ∧ base.urgent.saveStaging.toNat % 0x200 = 0 ∧ (inMode .urgentRun base).urgent.mode ≠ .normal
    ∧ (0x0401#16).toNat % 0x200 ≠ 0 := by decide

theorem test_meets_BusTenureFollowsGrant :
    let q := fun (w e u : Option Access) =>
      { base with sbi := { base.sbi with tenure := .requesting, walker := w, engine := e, urgent := u } }
    let o := carrying .engine wordAccess base
    ((q (some wordAccess) none none).sbi.tenure = .requesting ∧ (q (some wordAccess) none none).sbi.inFlight = none
      ∧ (q (some wordAccess) none none).sbi.walker = some wordAccess)
    ∧ (q none (some wordAccess) none).sbi.engine = some wordAccess
    ∧ (q none none (some wordAccess)).sbi.urgent = some wordAccess
    ∧ base.sbi.tenure ≠ .requesting
    ∧ (o.sbi.tenure = .owner ∧ ∃ x, o.sbi.inFlight = some x)
    ∧ (o.Running ∧ o.sbi.inFlight = some (.engine, wordAccess) ∧ wordAccess.width = .word
      ∧ (writeByte 0x8200 1).width = .byte ∧ (writeByte 0x8200 1).address.toNat % 2 = 0
      ∧ (writeByte 0x8201 1).address.toNat % 2 = 1)
    ∧ ({ o.sbi with inFlight := none } : Sbi).inFlight = none ∧ State.reset.sbi.tenure = .releasing
    ∧ base.sbi.tenure = .idle
    ∧ (let b := { Sbi.reset with tenure := .owner }
       b.inFlight = none ∧ b.anyPending = false ∧ ({ b with engine := some wordAccess } : Sbi).anyPending = true
        ∧ b.granted = false ∧ ({ b with granted := true } : Sbi).granted = true)
    ∧ (let r := carrying .urgent wordAccess (inMode .urgentRestore base)
       r.Carrying .urgent wordAccess ∧ wordAccess.width = .word ∧ r.urgent.mode = .urgentRestore
        ∧ r.urgent.readProgress < 143 ∧ r.sbi.tenure = .owner ∧ r.sbi.walker = none ∧ r.sbi.engine = none) :=
  ⟨by decide, by decide, by decide, by decide, ⟨by decide, _, rfl⟩, by decide, by decide, by decide, by decide, by decide,
    by decide⟩

end Sys2Proof.Tests
end

section
/-! SUPPORT. What GRANT_WORD_WRITE does to the grant map and leaves unchanged, and the proof of
`Obligations.GrantWordWritesReplace` (R4, R6, R8). -/

namespace Sys2Proof.Machine

/-- The sixteen ports of group `g` (R4). -/
theorem portGroup_eq_iff (p : Port) (g : Fin 16) : portGroup p = g ↔ p.toNat / 16 = g.val := by
  have hp : p.toNat / 16 < 16 := Nat.div_lt_of_lt_mul p.isLt
  rw [Fin.ext_iff, portGroup, Fin.val_ofNat, Nat.mod_eq_of_lt hp]

/-- The register at 2CH reads the grant word of the selected domain and port group (R6). -/
theorem readReg_grantWord (s : State) :
    s.readReg 0x16#6 = s.grants[s.window.tselDomain][s.window.tselGroup] := rfl

theorem exec_grantWordWrite_running {s : State} (hs : s.Running) (v : Word) :
    exec (.grantWordWrite v) s = .next (s.writeGrants v) :=
  congrArg Host.Outcome.next (unlessReset_running hs)

section Closed

variable {s : State} (h : s.domains[s.window.tselDomain].state = .closed)

include h

theorem writeGrants_closed (v : Word) :
    s.writeGrants v = { s with
      grants := s.grants.set s.window.tselDomain
        (s.grants[s.window.tselDomain].set s.window.tselGroup v) } := by
  simp only [State.writeGrants, h]

/-- The frame of the write: nothing but the grant maps changes. -/
theorem writeGrants_closed_frame (v : Word) :
    s.writeGrants v = { s with grants := (s.writeGrants v).grants } := by
  rw [writeGrants_closed h]

/-- The written word is the word of the selected domain and group; every other word stands. -/
theorem writeGrants_closed_word (v : Word) (d : DomainId) (g : Fin 16) :
    (s.writeGrants v).grants[d][g] =
      if d = s.window.tselDomain ∧ g = s.window.tselGroup then v else s.grants[d][g] := by
  rw [writeGrants_closed h]
  dsimp only
  rw [set_getElem]
  by_cases hd : d = s.window.tselDomain
  · subst hd
    rw [if_pos rfl, set_getElem]
    simp only [true_and]
  · simp only [hd, if_false, false_and]

theorem readReg_grantWord_writeGrants (v : Word) : (s.writeGrants v).readReg 0x16#6 = v := by
  have selection : (s.writeGrants v).window = s.window := by rw [writeGrants_closed h]
  rw [readReg_grantWord, writeGrants_closed_word h,
    if_pos ⟨congrArg Window.tselDomain selection, congrArg Window.tselGroup selection⟩]

/-- Grant by grant: a port takes its bit of the written word where it lies in the selected group of the selected domain. -/
theorem portGranted_writeGrants (v : Word) (d : DomainId) (p : Port) :
    (s.writeGrants v).portGranted d p =
      if d = s.window.tselDomain ∧ p.toNat / 16 = s.window.tselGroup.val then v.getLsbD (p.toNat % 16)
      else s.portGranted d p := by
  unfold State.portGranted
  simp only [writeGrants_closed_word h, portGroup_eq_iff]
  split <;> rfl

end Closed

theorem writeGrants_opened {s : State} (h : s.domains[s.window.tselDomain].state = .opened) (v : Word) :
    s.writeGrants v = s.lockTable := by
  simp only [State.writeGrants, h]

/-- Settles O17: the selected word is replaced in the map of a CLOSED domain, and an OPEN domain's write is turned away. -/
theorem grantWordWritesReplace : Obligations.GrantWordWritesReplace := by
  intro v s hs
  rw [exec_grantWordWrite_running hs]
  constructor
  · intro hclosed
    exact ⟨s.writeGrants v, rfl, readReg_grantWord_writeGrants hclosed v, portGranted_writeGrants hclosed v,
      writeGrants_closed_frame hclosed v⟩
  · intro hopened
    rw [writeGrants_opened hopened]
    rfl

end Sys2Proof.Machine
end

section
/-! SUPPORT. What INV_ALL does to the cache and to a walk in progress and leaves unchanged, and the proof of
`Obligations.InvAllInvalidatesEverything` (R46, R47, R51). -/

namespace Sys2Proof.Machine

/-- No check of INV_ALL can fail once the command is taken (R47). -/
theorem exec_invAll_taken {s : State} (hs : s.TakesCommands) (hi : Byte) :
    exec (.invAll hi) s = .next ((s.latch 0x03).invalidateAll.setRes .ok) :=
  congrArg Host.Outcome.next (command_taken hs 0x03 invAll)

/-- The effect field by field: a walk in progress is marked whatever it asks for (R51). -/
theorem invalidateAll_eq (s : State) :
    s.invalidateAll = { s with
      cache := (s.invalidate (fun _ => true)).cache
      walker := { s.walker with stale := s.walker.stale || s.walker.state != .idle } } := by
  unfold State.invalidateAll
  rw [markStale_eq, State.invalidate_walker, Bool.and_true]
  rfl

theorem invalidateAll_cache (s : State) : s.invalidateAll.cache = (s.invalidate (fun _ => true)).cache := by
  rw [invalidateAll_eq]

theorem invalidateAll_walker (s : State) :
    s.invalidateAll.walker = { s.walker with stale := s.walker.stale || s.walker.state != .idle } :=
  congrArg State.walker (invalidateAll_eq s)

/-- The frame of the effect: nothing but the cache and the walker changes. -/
theorem invalidateAll_frame (s : State) :
    s.invalidateAll = { s with cache := s.invalidateAll.cache, walker := s.invalidateAll.walker } := by
  rw [invalidateAll_eq]

/-- Every entry is invalidated, valid or not (section 3.4). -/
theorem invalidateAll_invalidated (s : State) : Invalidated s s.invalidateAll (fun _ _ => true) := by
  intro i w
  simp only [invalidateAll_cache]
  exact invalidate_getElem s (fun _ => true) i w

/-- Settles O19: the command records its result, and its effect is on the cache and the stale mark alone. -/
theorem invAllInvalidatesEverything : Obligations.InvAllInvalidatesEverything := by
  intro hi s hs
  refine ⟨_, exec_invAll_taken hs hi, ?entries, ?mark, ?frame⟩
  case entries => exact invalidateAll_invalidated (s.latch 0x03)
  case mark => exact invalidateAll_walker (s.latch 0x03)
  case frame => exact congrArg (State.setRes · .ok) (invalidateAll_frame (s.latch 0x03))

end Sys2Proof.Machine
end

section
/-! SUPPORT. The choice among the channels that wait for the fault queue, what FQ_POP does with the queue and the chosen
channel, and the proof of `Obligations.FqPopWakesLowestWaiting` (R126, R127). -/

namespace Sys2Proof.Machine

/-! ### The channel that a pop chooses (R127) -/

theorem allChannels_eq_finRange : allChannels = List.finRange 8 := by decide

theorem firstWaiting_eq_find? (s : State) :
    s.firstWaiting = Fin.find? (fun c : ChannelId => s.channels[c].state == .faultWait) := by
  rw [State.firstWaiting, allChannels_eq_finRange, Fin.find?_eq_find?_finRange]

theorem firstWaiting_eq_none_iff {s : State} :
    s.firstWaiting = none ↔ ∀ c : ChannelId, s.channels[c].state ≠ .faultWait := by
  simp only [firstWaiting_eq_find?, Fin.find?_eq_none_iff, beq_eq_false_iff_ne]

theorem firstWaiting_eq_some_iff {s : State} {c : ChannelId} :
    s.firstWaiting = some c ↔
      s.channels[c].state = .faultWait ∧ ∀ c' : ChannelId, c' < c → s.channels[c'].state ≠ .faultWait := by
  simp only [firstWaiting_eq_find?, Fin.find?_eq_some_iff, beq_iff_eq, beq_eq_false_iff_ne]

/-! ### The pop -/

/-- The choice of a channel does not look at the queue, so the removal of the head does not change it. -/
theorem popFault_of_none {s : State} (h : s.firstWaiting = none) : s.popFault = { s with queue := s.queue.tail } := by
  have hpopped : { s with queue := s.queue.tail }.firstWaiting = none := h
  simp only [State.popFault, hpopped]

theorem popFault_of_some {s : State} {c : ChannelId} (h : s.firstWaiting = some c) :
    s.popFault = { s with
      queue := s.queue.tail ++ s.channels[c].held.toList
      channels := s.channels.set c { s.channels[c] with state := .faulted, held := none } } := by
  have hpopped : { s with queue := s.queue.tail }.firstWaiting = some c := h
  simp only [State.popFault, hpopped]
  rfl

/-! ### The command, case by case (R126) -/

theorem fqPop_notNormal {s : State} (h : s.urgent.mode ≠ .normal) (a : Args) : fqPop a s = (s, .engineUnavailable) :=
  if_pos h

theorem fqPop_empty {s : State} (hmode : s.urgent.mode = .normal) (hq : s.queue = []) (a : Args) :
    fqPop a s = (s, .ok) := by
  rw [fqPop, if_neg (not_not.mpr hmode), if_pos hq]

theorem fqPop_nonempty {s : State} (hmode : s.urgent.mode = .normal) (hq : s.queue ≠ []) (a : Args) :
    fqPop a s = (s.popFault, .ok) := by
  rw [fqPop, if_neg (not_not.mpr hmode), if_neg hq]

/-- A taken FQ_POP is its effect on the state that has latched the command, with the result recorded (R176). -/
theorem exec_fqPop_taken {s t : State} {r : Result} (hs : s.TakesCommands) (hi : Byte)
    (h : fqPop s.window.args (s.latch 0x0C) = (t, r)) : exec (.fqPop hi) s = .next (t.setRes r) := by
  have hexec : exec (.fqPop hi) s = .next (s.unlessReset (s.command 0x0C fqPop)) := rfl
  rw [hexec, command_taken hs, h]

/-- Settles O36: the effect in each case is the one of `popFault`, and the taking of the command touches the window alone. -/
theorem fqPopWakesLowestWaiting : Obligations.FqPopWakesLowestWaiting := by
  intro hi s hs
  refine ⟨?refused, ?empty, ?popped⟩
  case refused =>
    intro hmode
    exact exec_fqPop_taken hs hi (fqPop_notNormal (s := s.latch 0x0C) hmode _)
  case empty =>
    intro hmode hq
    exact exec_fqPop_taken hs hi (fqPop_empty (s := s.latch 0x0C) hmode hq _)
  case popped =>
    intro r rest hmode hq
    have hpop : exec (.fqPop hi) s = .next ((s.latch 0x0C).popFault.setRes .ok) :=
      exec_fqPop_taken hs hi (fqPop_nonempty (s := s.latch 0x0C) hmode (hq ▸ List.cons_ne_nil r rest) _)
    have htail : s.queue.tail = rest := congrArg List.tail hq
    constructor
    · intro hnone
      have hfirst : (s.latch 0x0C).firstWaiting = none := firstWaiting_eq_none_iff.mpr hnone
      rw [hpop, popFault_of_none hfirst, ← htail]
      rfl
    · intro c held hwait hheld hlowest
      have hfirst : (s.latch 0x0C).firstWaiting = some c := firstWaiting_eq_some_iff.mpr ⟨hwait, hlowest⟩
      have hjoins : [held] = s.channels[c].held.toList := by rw [hheld, Option.toList_some]
      rw [hpop, popFault_of_some hfirst, ← htail, hjoins]
      rfl

end Sys2Proof.Machine
end

section
/-! SUPPORT. Law 4 under every move of a command, and the proof of `Obligations.QueueLawKept` (R122, R124, R127). -/

namespace Sys2Proof.Machine

/-! ### Channel contexts that are not in FAULT_WAIT -/

theorem Channel.leave_state_ne {x : Channel} {st q : ChannelState} (hst : st ≠ q) (hidle : q ≠ .idle)
    (hhalted : q ≠ .halted) : (x.leave st).state ≠ q := by
  rw [leave_eq, Channel.afterService]
  split
  · exact hidle.symm
  · dsimp only
    split
    · exact hhalted.symm
    · exact hst

theorem Channel.advance_state (x : Channel) :
    x.advance.state = if isEnd x.control then .done else .ready := by
  unfold Channel.advance
  split <;> rfl

theorem Channel.wake_cases (x : Channel) (lines : BitVec 8) :
    x.wake lines = x ∨ (x.state = .waitReq ∧ x.wake lines = { x with state := .ready }) := by
  unfold Channel.wake
  split
  · split
    · exact .inr ⟨by assumption, rfl⟩
    · exact .inl rfl
  · exact .inl rfl

/-- A service that ends leaves its channel in the context written last. -/
theorem setChannel_endService (s : State) (c : ChannelId) (x : Channel) (st : ChannelState) :
    (s.setChannel c x).endService c st = (s.setChannel c (x.leave st)).freeEngine := by
  rw [State.endService, State.modChannel, setChannel_same]
  simp only [State.setChannel, Vector.set_set]

/-! ### The records that pass validation (R160) -/

/-- An image that passes has a record for each channel that passes (R159). -/
theorem recordFault_of_imageFault {s : State} (h : s.imageFault = none) (c : ChannelId) :
    s.recordFault s.channels[c].state (imageRecord s.urgent.image c) = none := by
  unfold State.imageFault at h
  split at h
  · cases h
  · have hc := List.findSome?_eq_none_iff.mp h c (allChannels_mem c)
    simpa using hc

/-- A record that passes carries a state that may replace the old one, and a disposition is allowed (checks 2 to 5 of
R160). -/
theorem recordFault_none {s : State} {old : ChannelState} {r : ImageRecord} (h : s.recordFault old r = none) :
    ∃ st, stateOfCode r.state = some st ∧ transitionOk old st = true ∧ r.disposition.toNat ≤ 2
      ∧ (r.disposition ≠ 0 → dispositionAllowed st r.phase = true)
      ∧ (st ≠ .idle → s.contextOk st r = true) := by
  unfold State.recordFault at h
  split at h
  · cases h
  · rename_i st hst
    refine ⟨st, hst, ?_⟩
    split at h
    · cases h
    · split at h
      · cases h
      · split at h
        · cases h
        · split at h
          · cases h
          · rename_i h1 h2 h3 h4
            refine ⟨by simpa using h1, by omega, ?_, ?_⟩
            · simpa using h3
            · intro h5
              simpa [h5] using h4

/-- The load of a record gives the record's state (R163). -/
theorem restore_state {x : Channel} {r : ImageRecord} {st : ChannelState} (h : stateOfCode r.state = some st) :
    (x.restore r).state = st := by
  simp only [Channel.restore, h, Option.getD_some]

/-- A channel loaded in the state it had keeps its held record (R163). -/
theorem restore_held {x : Channel} {r : ImageRecord} (h : stateOfCode r.state = some x.state) :
    (x.restore r).held = x.held := by
  simp only [Channel.restore, h, Option.getD_some, Bool.and_eq_true, beq_iff_eq, bne_iff_ne]
  split
  · rename_i k; exact absurd k.1 k.2
  · rfl

/-- A disposition leaves a channel in no state but READY, HALTED or DONE, and is made of no other record (R160, R164). -/
theorem loadRecord_eq_restore {x : Channel} {r : ImageRecord} (h : r.disposition = 0) : x.loadRecord r = x.restore r := by
  simp only [Channel.loadRecord, h]
  rfl

theorem loadImage_getElem (s : State) (c : ChannelId) :
    s.loadImage.channels[c] = s.channels[c].loadRecord (imageRecord s.urgent.image c) := by
  have h : s.loadImage.channels =
      updateEach allChannels (fun c x => x.loadRecord (imageRecord s.urgent.image c)) s.channels := rfl
  simp only [h, updateChannels_getElem]

theorem Channel.redo_state (x : Channel) : x.redo.state = settledState x.state := rfl

theorem Channel.skip_state (x : Channel) :
    x.skip.state = if x.phase = .writeback ∧ isEnd x.control = true then .done else settledState x.state := by
  unfold Channel.skip
  cases hp : x.phase
  case writeback =>
    by_cases he : isEnd x.control = true
    · simp [he, Channel.advance_state]
    · simp [he]
  all_goals simp

/-- The states that a loaded record leads to: its own, or with a disposition DONE or the settled state (R163, R164). -/
theorem loadRecord_state {x : Channel} {r : ImageRecord} {st : ChannelState} (h : stateOfCode r.state = some st) :
    (r.disposition.toNat ≠ 1 ∧ r.disposition.toNat ≠ 2 ∧ x.loadRecord r = x.restore r)
    ∨ (r.disposition ≠ 0
      ∧ ((x.loadRecord r).state = .done ∨ (x.loadRecord r).state = settledState st)) := by
  unfold Channel.loadRecord
  split
  · rename_i hd
    refine .inr ⟨by rintro h0; simp [h0] at hd, .inr ?_⟩
    rw [Channel.redo_state, restore_state h]
  · rename_i hd
    refine .inr ⟨by rintro h0; simp [h0] at hd, ?_⟩
    rw [Channel.skip_state, restore_state h]
    split
    · exact .inl rfl
    · exact .inr rfl
  · exact .inl ⟨by assumption, by assumption, rfl⟩

/-- What passes validation loads FAULT_WAIT only where the channel is in FAULT_WAIT, with its held record (R160, R163). -/
theorem loadRecord_faultWait {s : State} {x : Channel} {r : ImageRecord} (h : s.recordFault x.state r = none)
    (hw : (x.loadRecord r).state = .faultWait) : x.state = .faultWait ∧ (x.loadRecord r).held = x.held := by
  obtain ⟨st, hst, htrans, -, hallowed, -⟩ := recordFault_none h
  rcases loadRecord_state (x := x) hst with ⟨-, -, hload⟩ | ⟨hd, hdone | hsettled⟩
  · rw [hload] at hw ⊢
    rw [restore_state hst] at hw
    subst hw
    have hold : x.state = .faultWait := by
      unfold transitionOk at htrans
      cases hx : x.state <;> simp [hx] at htrans ⊢
    exact ⟨hold, restore_held (by rw [hst, hold])⟩
  · rw [hdone] at hw; cases hw
  · have hne : st ≠ .faultWait := by
      rintro rfl
      simpa [dispositionAllowed] using hallowed hd
    rw [hsettled] at hw
    cases st <;> simp_all [settledState]

/-! ### Law 4 -/

/-- A channel that is given another state than FAULT_WAIT is of no matter to the law. -/
theorem QueueLaw.setChannel {s : State} (p : QueueLaw s) (c : ChannelId) {x : Channel} (hx : x.state ≠ .faultWait) :
    QueueLaw (s.setChannel c x) := by
  refine ⟨p.1, fun k hk => ?_⟩
  rw [State.setChannel_channels, set_getElem] at hk ⊢
  by_cases h : k = c
  · rw [if_pos h] at hk; exact absurd hk hx
  · rw [if_neg h] at hk ⊢; exact p.2 k hk

theorem QueueLaw.endService {s : State} (p : QueueLaw s) (c : ChannelId) {st : ChannelState} (hst : st ≠ .faultWait) :
    QueueLaw (s.endService c st) :=
  p.setChannel c (Channel.leave_state_ne hst (by decide) (by decide))

/-- The same for a context that is written before its service ends. -/
theorem QueueLaw.writeAndEnd {s : State} (p : QueueLaw s) (c : ChannelId) (x : Channel) {st : ChannelState}
    (hst : st ≠ .faultWait) : QueueLaw ((s.setChannel c x).endService c st) := by
  rw [setChannel_endService]
  exact p.setChannel c (Channel.leave_state_ne hst (by decide) (by decide))

/-- A change of every channel that brings none into FAULT_WAIT and keeps the held records there. -/
theorem QueueLaw.channels {s t : State} (p : QueueLaw s) (hq : t.queue = s.queue)
    (hc : ∀ c : ChannelId, t.channels[c].state = .faultWait →
      s.channels[c].state = .faultWait ∧ t.channels[c].held = s.channels[c].held) : QueueLaw t := by
  refine ⟨hq ▸ p.1, fun c h => ?_⟩
  obtain ⟨hstate, hheld⟩ := hc c h
  rw [hq, hheld]
  exact p.2 c hstate

/-- A fault joins the queue while it has room, and then no channel waits; otherwise its channel waits with the record
(R123, R124). -/
theorem QueueLaw.takeFault {s : State} (p : QueueLaw s) (c : ChannelId) (r : FaultRecord) :
    QueueLaw (s.takeFault c r) := by
  obtain ⟨hle, hwait⟩ := p
  obtain ⟨hq, hc⟩ := takeFault_reported (s := s) (u := s) (c := c) (r := r) rfl rfl
  by_cases room : s.queue.length < 12
  · rw [if_pos room] at hq
    refine ⟨by rw [hq, List.length_append]; exact room, fun k hk => ?_⟩
    rw [hc, set_getElem] at hk
    by_cases hkc : k = c
    · rw [if_pos hkc] at hk
      simp only [if_pos room] at hk
      split at hk <;> cases hk
    · rw [if_neg hkc] at hk
      have := (hwait k hk).1
      omega
  · rw [if_neg room] at hq
    refine ⟨by rw [hq]; exact hle, fun k hk => ?_⟩
    rw [hc, set_getElem] at hk ⊢
    rw [hq]
    refine ⟨by omega, ?_⟩
    by_cases hkc : k = c
    · rw [if_pos hkc] at hk ⊢
      split at hk
      · cases hk
      · rename_i ha
        rw [if_neg ha, if_neg room]; rfl
    · rw [if_neg hkc] at hk ⊢
      exact (hwait k hk).2

/-- A pop leaves room for the record of the channel that it wakes (R127). -/
theorem QueueLaw.popFault {s : State} (p : QueueLaw s) (hne : s.queue ≠ []) : QueueLaw s.popFault := by
  obtain ⟨hle, hwait⟩ := p
  have htail : s.queue.tail.length + 1 = s.queue.length := by
    cases hq : s.queue with
    | nil => exact absurd hq hne
    | cons r rest => rfl
  cases hfirst : s.firstWaiting with
  | none =>
    rw [popFault_of_none hfirst]
    exact ⟨by simp only; omega, fun k hk => absurd hk (firstWaiting_eq_none_iff.mp hfirst k)⟩
  | some c =>
    rw [popFault_of_some hfirst]
    obtain ⟨hfull, hheld⟩ := hwait c (firstWaiting_eq_some_iff.mp hfirst).1
    have hlen : (s.queue.tail ++ s.channels[c].held.toList).length = 12 := by
      obtain ⟨r, hr⟩ := Option.isSome_iff_exists.mp hheld
      rw [hr, List.length_append, Option.toList_some, List.length_singleton]
      omega
    refine ⟨hlen.le, fun k hk => ?_⟩
    simp only [set_getElem] at hk ⊢
    by_cases hkc : k = c
    · rw [if_pos hkc] at hk; cases hk
    · rw [if_neg hkc] at hk ⊢
      exact ⟨hlen, (hwait k hk).2⟩

theorem QueueLaw.loadImage {s : State} (p : QueueLaw s) (h : s.imageFault = none) : QueueLaw s.loadImage :=
  p.channels rfl fun c hc => by
    rw [loadImage_getElem] at hc ⊢
    exact loadRecord_faultWait (recordFault_of_imageFault h c) hc

/-- The law survives every move of a command. -/
theorem kept_queueLaw : Kept QueueLaw where
  same p hc hq _ _ _ _ _ := p.channels hq fun c h => by rw [hc] at h ⊢; exact ⟨h, rfl⟩
  start c _ _ _ p _ := p.setChannel c nofun
  halt c p _ := p.setChannel c nofun
  pend c _ _ p h := p.setChannel c (by rw [h]; decide)
  continue_ c p _ := p.setChannel c nofun
  skip c p _ := p.setChannel c nofun
  skipAdvance c p _ := p.setChannel c (by rw [Channel.advance_state]; split <;> decide)
  abort c p _ _ := p.setChannel c nofun
  pop p h := p.popFault h
  sweep {s} p _ := QueueLaw.channels (s := s) p rfl fun c h => by
    change (s.mapChannels (fun _ x => x.sweep)).channels[c].state = _ at h
    rw [mapChannels_getElem] at h; cases h
  wake {s} lines p _ := p.channels rfl fun c h => by
    rw [mapChannels_getElem] at h ⊢
    rcases s.channels[c].wake_cases lines with e | ⟨-, e⟩ <;> rw [e] at h ⊢
    · exact ⟨h, rfl⟩
    · cases h
  grant c _ p _ _ _ _ _ := p.setChannel c nofun
  grantDone c p _ _ _ := p.writeAndEnd c _ nofun
  ends c st p _ _ h := p.endService c (by rcases h with rfl | rfl <;> decide)
  faults c r p _ _ := p.takeFault c r
  holds _ p _ _ := p
  load c _ p _ _ _ := p.writeAndEnd c _ nofun
  beat {s} c p _ _ _ := p.channels rfl fun k h => by
    rw [State.setChannel_channels, set_getElem] at h ⊢
    split at h
    · subst k; rw [if_pos rfl]; exact ⟨h, rfl⟩
    · rw [if_neg (by assumption)]; exact ⟨h, rfl⟩
  lastBeat c p _ _ _ := p.writeAndEnd c _ nofun
  advance c p _ _ := p.writeAndEnd c _ (by split <;> decide)
  serveUrgent _ p _ _ _ := p
  run _ p _ _ := p
  restore p _ := p
  entry p _ := p
  latch _ p _ := p
  save p _ _ := p
  lock p _ := p
  restored p _ h _ := p.loadImage h
  entered p _ h := p.loadImage h
  reset hc hq _ _ _ := ⟨by rw [hq]; decide, fun c h => by rw [hc] at h; simp [Channel.reset] at h⟩

/-- Settles O37: law 4 survives every move of a command, and so every step. -/
theorem queueLawKept : Obligations.QueueLawKept := fun s t => kept_step kept_queueLaw s t

end Sys2Proof.Machine
end

section
/-! SUPPORT. Law 7 under every move of a command, and the proof of `Obligations.LatchLawKept` (R139). -/

namespace Sys2Proof.Machine

/-- The law speaks of the mode and the latch alone. -/
theorem LatchLaw.same {s t : State} (p : LatchLaw s) (hmode : t.urgent.mode = s.urgent.mode)
    (hlatch : t.urgent.latch = s.urgent.latch) : LatchLaw t := by
  unfold LatchLaw
  rw [hmode, hlatch]
  exact p

/-- A clear latch meets the law in every mode. -/
theorem LatchLaw.of_clear {s : State} (h : s.urgent.latch = none) : LatchLaw s := by
  intro k
  rw [h] at k
  cases k

/-- The law survives every move of a command: only a request sets the latch, and it does so in the urgent modes alone. -/
theorem kept_latchLaw : Kept LatchLaw where
  same p _ _ _ _ hmode _ hlatch := p.same hmode hlatch
  start _ _ _ _ p _ := p
  halt _ p _ := p
  pend _ _ _ p _ := p
  continue_ _ p _ := p
  skip _ p _ := p
  skipAdvance _ p _ := p
  abort _ p _ _ := p
  pop {s} p _ := by
    cases h : s.firstWaiting with
    | none => rw [popFault_of_none h]; exact p
    | some c => rw [popFault_of_some h]; exact p
  sweep p hmode := fun h => by rcases p h with k | k | k | k <;> rw [hmode] at k <;> cases k
  wake _ p _ := p
  grant _ _ p _ _ _ _ _ := p
  grantDone _ p _ _ _ := p
  ends _ _ p _ _ _ := p
  faults _ _ p _ _ := p
  holds _ _ _ _ := fun _ => .inr (.inr (.inl rfl))
  load _ _ p _ _ _ := p
  beat _ p _ _ _ := p
  lastBeat _ p _ _ _ := p
  advance _ p _ _ := p
  serveUrgent _ p _ _ _ := p
  run _ _ _ _ := fun _ => .inr (.inl rfl)
  restore _ _ := fun _ => .inr (.inr (.inr rfl))
  entry _ _ := fun _ => .inl rfl
  latch _ _ hmode := fun _ => hmode
  save p _ _ := p
  lock _ _ := .of_clear rfl
  restored _ _ _ hlatch := .of_clear hlatch
  entered _ _ _ := .of_clear rfl
  reset _ _ _ _ hlatch := .of_clear hlatch

/-- Settles O51: law 7 survives every move of a command, and so every step. -/
theorem latchLawKept : Obligations.LatchLawKept := fun s t => kept_step kept_latchLaw s t

end Sys2Proof.Machine
end

section
/-! SUPPORT. The Engine's service and the ACTIVE channel under every move of a command, and the proof of
`Obligations.ServiceLawKept` (R79, R105, R141). -/

namespace Sys2Proof.Machine

/-! ### Whom the Engine may serve -/

theorem ServerAllowed.same {s t : State} (p : ServerAllowed s) (hv : t.engine.service = s.engine.service)
    (hw : t.engine.server = s.engine.server) (hmode : t.urgent.mode = s.urgent.mode)
    (hstep : t.urgent.step = s.urgent.step) : ServerAllowed t := by
  unfold ServerAllowed
  rw [hv, hw, hmode, hstep]
  exact p

/-- A free Engine is allowed in every mode but URGENT_RUN, in which U is served without a break (R141). -/
theorem serverAllowed_of_free {s : State} (hv : s.engine.service = .none) (hmode : s.urgent.mode ≠ .urgentRun) :
    ServerAllowed s := by
  unfold ServerAllowed
  split <;> first | exact .inl hv | exact hv | exact absurd (by assumption) hmode

/-- In URGENT_RUN the Engine serves U. -/
theorem ServerAllowed.run {s : State} (p : ServerAllowed s) (h : s.urgent.mode = .urgentRun) :
    s.engine.service ≠ .none ∧ s.engine.server = .urgent := by
  unfold ServerAllowed at p
  rwa [h] at p

/-- U is served in URGENT_RUN alone. -/
theorem ServerAllowed.urgent {s : State} (p : ServerAllowed s) (hv : s.engine.service ≠ .none)
    (hw : s.engine.server = .urgent) : s.urgent.mode = .urgentRun := by
  unfold ServerAllowed at p
  cases hmode : s.urgent.mode <;> simp_all

/-- Outside NORMAL, the drain and URGENT_RUN the Engine is free (R141). -/
theorem ServerAllowed.free {s : State} (p : ServerAllowed s)
    (h : (s.urgent.mode = .urgentEntry ∧ s.urgent.step = .save) ∨ s.urgent.mode = .urgentHold
      ∨ s.urgent.mode = .urgentRestore ∨ s.urgent.mode = .locked) : s.engine.service = .none := by
  unfold ServerAllowed at p
  rcases h with ⟨h, hstep⟩ | h | h | h <;> simp_all

/-! ### The ACTIVE channel -/

theorem ServiceLaw.active {s : State} (p : ServiceLaw s) {c : ChannelId} (hv : s.engine.service ≠ .none)
    (hw : s.engine.server = .channel c) : s.channels[c].state = .active := (p.2 c).mpr ⟨hv, hw⟩

/-- While the Engine serves no other channel than `c`, no other is ACTIVE. -/
theorem ServiceLaw.others {s : State} (p : ServiceLaw s) {c : ChannelId}
    (h : s.engine.service = .none ∨ s.engine.server = .channel c) {k : ChannelId} (hk : k ≠ c) :
    s.channels[k].state ≠ .active := by
  intro ha
  obtain ⟨hv, hw⟩ := (p.2 k).mp ha
  rcases h with h | h
  · exact hv h
  · rw [h] at hw
    exact hk (Server.channel.inj hw).symm

/-- Without a channel's service no channel is ACTIVE. -/
theorem ServiceLaw.inactive {s : State} (p : ServiceLaw s)
    (h : s.engine.service = .none ∨ s.engine.server = .urgent) (c : ChannelId) : s.channels[c].state ≠ .active := by
  intro ha
  obtain ⟨hv, hw⟩ := (p.2 c).mp ha
  rcases h with h | h
  · exact hv h
  · rw [h] at hw; cases hw

/-- The Engine, the mode and the step stand, and each channel is ACTIVE as before. -/
theorem ServiceLaw.same {s t : State} (p : ServiceLaw s) (hv : t.engine.service = s.engine.service)
    (hw : t.engine.server = s.engine.server) (hmode : t.urgent.mode = s.urgent.mode)
    (hstep : t.urgent.step = s.urgent.step)
    (hc : ∀ c : ChannelId, t.channels[c].state = .active ↔ s.channels[c].state = .active) : ServiceLaw t :=
  ⟨p.1.same hv hw hmode hstep, fun c => by rw [hc, hv, hw]; exact p.2 c⟩

/-- One channel is given a context, ACTIVE exactly if it was. -/
theorem ServiceLaw.setChannel {s : State} (p : ServiceLaw s) (c : ChannelId) {x : Channel}
    (hx : x.state = .active ↔ s.channels[c].state = .active) : ServiceLaw (s.setChannel c x) :=
  p.same rfl rfl rfl rfl fun k => by
    rw [State.setChannel_channels, set_getElem]
    split
    · subst k; exact hx
    · exact Iff.rfl

/-- One channel that is not ACTIVE goes to another such state. -/
theorem ServiceLaw.moveChannel {s : State} (p : ServiceLaw s) (c : ChannelId) {x : Channel}
    (hs : s.channels[c].state ≠ .active) (hx : x.state ≠ .active) : ServiceLaw (s.setChannel c x) :=
  p.setChannel c (iff_of_false hx hs)

/-- No one is served, in a mode that allows it, and no channel is ACTIVE. -/
theorem serviceLaw_of_free {s : State} (hv : s.engine.service = .none) (hmode : s.urgent.mode ≠ .urgentRun)
    (hc : ∀ c : ChannelId, s.channels[c].state ≠ .active) : ServiceLaw s :=
  ⟨serverAllowed_of_free hv hmode, fun c => iff_of_false (hc c) fun h => h.1 hv⟩

/-- U is served in URGENT_RUN, and no channel is ACTIVE. -/
theorem serviceLaw_of_run {s : State} (hv : s.engine.service ≠ .none) (hw : s.engine.server = .urgent)
    (hmode : s.urgent.mode = .urgentRun) (hc : ∀ c : ChannelId, s.channels[c].state ≠ .active) : ServiceLaw s := by
  refine ⟨?_, fun c => iff_of_false (hc c) fun h => ?_⟩
  · unfold ServerAllowed
    rw [hmode]
    exact ⟨hv, hw⟩
  · rw [hw] at h; cases h.2

/-- A service of channel `c`, or none, is over: the Engine is free and the channel not ACTIVE. -/
theorem ServiceLaw.stop {s t : State} (p : ServiceLaw s) (c : ChannelId)
    (hfree : s.engine.service = .none ∨ s.engine.server = .channel c) (hv : t.engine.service = .none)
    (hmode : t.urgent.mode = s.urgent.mode)
    (hk : ∀ k : ChannelId, k ≠ c → t.channels[k] = s.channels[k]) (hc : t.channels[c].state ≠ .active) :
    ServiceLaw t := by
  refine serviceLaw_of_free hv (fun h => ?_) fun k => ?_
  · obtain ⟨hv', hw'⟩ := p.1.run (hmode.symm.trans h)
    rcases hfree with h | h
    · exact hv' h
    · rw [h] at hw'; cases hw'
  · by_cases hkc : k = c
    · rw [hkc]; exact hc
    · rw [hk k hkc]; exact p.others hfree hkc

theorem ServiceLaw.endService {s : State} (p : ServiceLaw s) (c : ChannelId) {st : ChannelState}
    (hfree : s.engine.service = .none ∨ s.engine.server = .channel c) (hst : st ≠ .active) :
    ServiceLaw (s.endService c st) := by
  refine p.stop c hfree rfl rfl (fun k hk => ?_) ?_
  · rw [endService_eq, set_getElem, if_neg hk]
  · rw [State.endService, State.freeEngine_channels, State.modChannel, setChannel_same]
    exact Channel.leave_state_ne hst (by decide) (by decide)

theorem ServiceLaw.writeAndEnd {s : State} (p : ServiceLaw s) (c : ChannelId) (x : Channel) {st : ChannelState}
    (hfree : s.engine.service = .none ∨ s.engine.server = .channel c) (hst : st ≠ .active) :
    ServiceLaw ((s.setChannel c x).endService c st) := by
  rw [setChannel_endService]
  refine p.stop c hfree rfl rfl (fun k hk => ?_) ?_
  · rw [State.freeEngine_channels, State.setChannel_channels, set_getElem, if_neg hk]
  · rw [State.freeEngine_channels, setChannel_same]
    exact Channel.leave_state_ne hst (by decide) (by decide)

/-- The context of a channel that has faulted is not ACTIVE (R123, R124, R96). -/
theorem takeFault_state (s : State) (c : ChannelId) (r : FaultRecord) :
    (s.takeFault c r).channels[c].state ≠ .active := by
  obtain ⟨-, hc⟩ := takeFault_reported (s := s) (u := s) (c := c) (r := r) rfl rfl
  rw [hc, set_getElem, if_pos rfl]
  split
  · nofun
  · split <;> nofun

theorem takeFault_others (s : State) (c : ChannelId) (r : FaultRecord) {k : ChannelId} (hk : k ≠ c) :
    (s.takeFault c r).channels[k] = s.channels[k] := by
  obtain ⟨-, hc⟩ := takeFault_reported (s := s) (u := s) (c := c) (r := r) rfl rfl
  rw [hc, set_getElem, if_neg hk]

/-- A grant: the channel is ACTIVE as the Engine serves it (R103). -/
theorem ServiceLaw.grant {s : State} (p : ServiceLaw s) (c : ChannelId) {v : Service}
    (hmode : s.urgent.mode = .normal) (hfree : s.engine.service = .none) (hv : v ≠ .none) :
    ServiceLaw ((s.setChannel c { s.channels[c] with state := .active }).startService (.channel c) v) := by
  refine ⟨?_, fun k => ?_⟩
  · unfold ServerAllowed
    rw [State.startService_urgent, State.setChannel_urgent, hmode]
    exact .inr nofun
  · rw [State.startService_channels, State.setChannel_channels, set_getElem]
    by_cases hk : k = c
    · rw [if_pos hk, hk]
      exact iff_of_true rfl ⟨hv, rfl⟩
    · rw [if_neg hk]
      exact iff_of_false (p.inactive (.inl hfree) k) fun h => hk (Server.channel.inj h.2).symm

/-- No record of an image loads a channel as ACTIVE (R160). -/
theorem loadImage_inactive {s : State} (h : s.imageFault = none) (c : ChannelId) :
    s.loadImage.channels[c].state ≠ .active := by
  rw [loadImage_getElem]
  generalize hx : s.channels[c] = x
  obtain ⟨st, hst, -⟩ := recordFault_none (recordFault_of_imageFault h c)
  have hne : st ≠ .active := by
    rintro rfl
    unfold stateOfCode at hst
    split at hst <;> cases hst
  rcases loadRecord_state (x := x) hst with ⟨-, -, hload⟩ | ⟨-, hdone | hsettled⟩
  · rw [hload, restore_state hst]; exact hne
  · rw [hdone]; nofun
  · rw [hsettled]
    cases st <;> first | exact hne | nofun

theorem ServiceLaw.popFault {s : State} (p : ServiceLaw s) : ServiceLaw s.popFault := by
  cases h : s.firstWaiting with
  | none => rw [popFault_of_none h]; exact p
  | some c =>
    rw [popFault_of_some h]
    have hwait := (firstWaiting_eq_some_iff.mp h).1
    exact (p.moveChannel c (x := { s.channels[c] with state := .faulted, held := none })
      (by rw [hwait]; decide) nofun).same rfl rfl rfl rfl fun _ => Iff.rfl

/-- The image is loaded while the Engine is free, and the restore ends (R163, R165). -/
theorem ServiceLaw.loaded {s t : State} (p : ServiceLaw s) (hmode : s.urgent.mode = .urgentRestore)
    (h : s.imageFault = none) (hc : t.channels = s.loadImage.channels) (he : t.engine = s.engine)
    (hrun : t.urgent.mode ≠ .urgentRun) : ServiceLaw t :=
  serviceLaw_of_free (by rw [he]; exact p.1.free (.inr (.inr (.inl hmode)))) hrun fun c => by
    rw [hc]; exact loadImage_inactive h c

/-- The law survives every move of a command. -/
theorem kept_serviceLaw : Kept ServiceLaw where
  same p hc _ hv hw hmode hstep _ := p.same hv hw hmode hstep fun c => by rw [hc]
  start c _ _ _ p h := p.moveChannel c (by rcases h with h | h <;> rw [h] <;> decide) nofun
  halt c p h := p.moveChannel c (by rcases h with h | h <;> rw [h] <;> decide) nofun
  pend c _ _ p _ := p.setChannel c Iff.rfl
  continue_ c p h := p.moveChannel c (by rcases h with h | h <;> rw [h] <;> decide) nofun
  skip c p h := p.moveChannel c (by rcases h with h | h <;> rw [h] <;> decide) nofun
  skipAdvance c p h := p.moveChannel c (by rcases h with h | h <;> rw [h] <;> decide)
    (by rw [Channel.advance_state]; split <;> decide)
  abort c p _ h := p.moveChannel c h nofun
  pop p _ := p.popFault
  sweep {s} p h := serviceLaw_of_free (p.1.free (.inr (.inr (.inr h)))) nofun fun c => by
    change (s.mapChannels (fun _ x => x.sweep)).channels[c].state ≠ _
    rw [mapChannels_getElem]
    nofun
  wake {s} lines p _ := p.same rfl rfl rfl rfl fun c => by
    rw [mapChannels_getElem]
    rcases s.channels[c].wake_cases lines with e | ⟨hw, e⟩ <;> rw [e]
    rw [hw]
    exact iff_of_false nofun nofun
  grant c _ p hmode hfree _ hv _ := p.grant c hmode hfree hv
  grantDone c p _ hfree _ := p.writeAndEnd c _ (.inl hfree) nofun
  ends c st p _ hw hst := p.endService c (.inr hw) (by rcases hst with rfl | rfl <;> decide)
  faults {s} c r p _ hw := p.stop c (.inr hw) rfl rfl (fun _ hk => takeFault_others s c r hk) (takeFault_state s c r)
  holds _ p _ hw := serviceLaw_of_free rfl nofun (p.inactive (.inr hw))
  load c _ p _ hw _ := p.writeAndEnd c _ (.inr hw) nofun
  beat c p _ _ _ := p.setChannel c Iff.rfl
  lastBeat c p _ hw _ := p.writeAndEnd c _ (.inr hw) nofun
  advance c p _ hw := p.writeAndEnd c _ (.inr hw) (by split <;> decide)
  serveUrgent _ p hv hw hne := serviceLaw_of_run hne rfl (p.1.urgent hv hw) (p.inactive (.inr hw))
  run _ p _ h := serviceLaw_of_run nofun rfl rfl <| p.inactive <| by
    rcases h with h | h | h
    · exact .inl (p.1.free (.inr (.inl h)))
    · exact .inl (p.1.free (.inl h))
    · exact .inr h.2
  restore p h := serviceLaw_of_free rfl nofun <| p.inactive <| by
    rcases h with h | h
    · exact .inl (p.1.free (.inr (.inl h)))
    · exact .inr h.2
  entry {s} p hmode := by
    refine ⟨?_, p.2⟩
    have := p.1
    unfold ServerAllowed at this ⊢
    rw [hmode] at this
    exact this.imp id fun h => ⟨rfl, h⟩
  latch _ p _ := p.same rfl rfl rfl rfl fun _ => Iff.rfl
  save p hmode hfree := serviceLaw_of_free hfree (by simp [hmode]) (p.inactive (.inl hfree))
  lock p h := by
    have hfree := p.1.free (h.elim (fun k => .inr (.inr (.inl k))) .inl)
    exact serviceLaw_of_free hfree nofun (p.inactive (.inl hfree))
  restored p hmode h _ := p.loaded hmode h rfl rfl nofun
  entered p hmode h := p.loaded hmode h rfl rfl nofun
  reset hc _ hv hmode _ := serviceLaw_of_free hv (by rw [hmode]; decide) fun c => by
    rw [hc]
    simp [Channel.reset]

/-- Settles O38: the law survives every move of a command, and so every step. -/
theorem serviceLawKept : Obligations.ServiceLawKept := fun s t => kept_step kept_serviceLaw s t

end Sys2Proof.Machine
end

section
/-! SUPPORT. Law 10 under every move of a command, and the proof of `Obligations.CountsLawKept` (R83). -/

namespace Sys2Proof.Machine

/-! ### Counts of a context -/

/-- The count is at least 1 and remaining at most the count (R83). -/
def Channel.Counted (x : Channel) : Prop := 1 ≤ x.count.toNat ∧ x.remaining.toNat ≤ x.count.toNat

/-- Law 10 of one context. -/
def Channel.CountsOk (x : Channel) : Prop := x.state ≠ .idle → x.Counted

theorem Channel.Counted.ok {x : Channel} (h : x.Counted) : x.CountsOk := fun _ => h

/-- A context with the same counts. -/
theorem Channel.Counted.keeps {x y : Channel} (h : x.Counted) (hcount : y.count = x.count := by rfl)
    (hremaining : y.remaining = x.remaining := by rfl) : y.CountsOk := fun _ => by
  unfold Channel.Counted
  rw [hcount, hremaining]
  exact h

theorem one_le_toNat {n : Nat} {x : BitVec n} (h : x ≠ 0) : 1 ≤ x.toNat :=
  Nat.one_le_iff_ne_zero.mpr fun k => h (BitVec.eq_of_toNat_eq (by rw [k]; rfl))

theorem Channel.countsOk_of_idle {x : Channel} (h : x.state = .idle) : x.CountsOk := fun k => absurd h k

theorem Channel.leave_counts (x : Channel) (st : ChannelState) :
    (x.leave st).count = x.count ∧ (x.leave st).remaining = x.remaining := by
  rw [leave_eq, Channel.afterService]
  split <;> exact ⟨rfl, rfl⟩

theorem Channel.Counted.leave {x : Channel} (h : x.Counted) (st : ChannelState) : (x.leave st).Counted := by
  unfold Channel.Counted
  rw [(x.leave_counts st).1, (x.leave_counts st).2]
  exact h

theorem Channel.advance_counts (x : Channel) : x.advance.count = x.count ∧ x.advance.remaining = x.remaining := by
  unfold Channel.advance
  split <;> exact ⟨rfl, rfl⟩

theorem Channel.Counted.advance {x : Channel} (h : x.Counted) : x.advance.Counted := by
  unfold Channel.Counted
  rw [x.advance_counts.1, x.advance_counts.2]
  exact h

/-- A descriptor that passes the format checks has a beat to make (R65). -/
theorem count_of_formatOk {d : Descriptor} {w : Server} (h : d.formatOk w = true) : 1 ≤ d.count.toNat := by
  have hne : d.count ≠ 0 := by
    simp only [Descriptor.formatOk, Bool.and_eq_true, bne_iff_ne] at h
    exact h.1.1.2
  exact one_le_toNat hne

/-- The conditions of R161 hold the counts of a record (R83, R161). -/
theorem contextOk_counts {s : State} {st : ChannelState} {r : ImageRecord} (h : s.contextOk st r = true) :
    1 ≤ r.count.toNat ∧ r.remaining.toNat ≤ r.count.toNat := by
  simp only [State.contextOk, Bool.and_eq_true, decide_eq_true_eq] at h
  obtain ⟨⟨⟨⟨⟨⟨⟨⟨⟨⟨⟨⟨⟨-, hcount⟩, hremaining⟩, -⟩, -⟩, -⟩, -⟩, -⟩, -⟩, -⟩, -⟩, -⟩, -⟩, -⟩ := h
  exact ⟨hcount, hremaining⟩

theorem Channel.skip_counts (x : Channel) : x.skip.count = x.count ∧ x.skip.remaining = x.remaining := by
  unfold Channel.skip
  split
  · dsimp only
    split <;> exact x.advance_counts
  · exact ⟨rfl, rfl⟩
  · exact ⟨rfl, rfl⟩

/-- A load gives the record's counts, and no disposition changes them (R163, R164). -/
theorem loadRecord_counts (x : Channel) (r : ImageRecord) :
    (x.loadRecord r).count = r.count ∧ (x.loadRecord r).remaining = r.remaining := by
  unfold Channel.loadRecord
  split
  · exact ⟨rfl, rfl⟩
  · exact Channel.skip_counts _
  · exact ⟨rfl, rfl⟩

/-- A record that passes validation loads a context that meets law 10. -/
theorem loadRecord_countsOk {s : State} {x : Channel} {r : ImageRecord} (h : s.recordFault x.state r = none) :
    (x.loadRecord r).CountsOk := by
  obtain ⟨st, hst, -, -, hallowed, hcontext⟩ := recordFault_none h
  by_cases hidle : st = .idle
  · subst hidle
    rcases loadRecord_state (x := x) hst with ⟨-, -, hload⟩ | ⟨hd, -⟩
    · exact Channel.countsOk_of_idle (by rw [hload, restore_state hst])
    · simpa [dispositionAllowed] using hallowed hd
  · refine Channel.Counted.ok ?_
    unfold Channel.Counted
    rw [(loadRecord_counts x r).1, (loadRecord_counts x r).2]
    exact contextOk_counts (hcontext hidle)

/-! ### Law 10 -/

theorem CountsLaw.countsOk {s : State} (p : CountsLaw s) (c : ChannelId) : s.channels[c].CountsOk := p.2.1 c

theorem CountsLaw.counted {s : State} (p : CountsLaw s) {c : ChannelId} {st : ChannelState}
    (h : s.channels[c].state = st) (hst : st ≠ .idle) : s.channels[c].Counted := p.2.1 c (h ▸ hst)

/-- The channel that the Engine serves is ACTIVE, so it is counted. -/
theorem CountsLaw.served {s : State} (p : CountsLaw s) {c : ChannelId} (hv : s.engine.service ≠ .none)
    (hw : s.engine.server = .channel c) : s.channels[c].Counted := p.counted (p.1.active hv hw) (by decide)

/-- The law with no move service under way. -/
theorem countsLaw_of_noMove {s : State} (p : ServiceLaw s) (hc : ∀ c : ChannelId, s.channels[c].CountsOk)
    (hv : s.engine.service ≠ .move ∨ s.engine.server = .urgent) : CountsLaw s :=
  ⟨p, hc, fun c hmove hw => by
    rcases hv with h | h
    · exact absurd hmove h
    · rw [h] at hw; cases hw⟩

/-- One channel that is not served is given a context that is counted. -/
theorem CountsLaw.setChannel {s : State} (p : CountsLaw s) (c : ChannelId) {x : Channel}
    (hs : ServiceLaw (s.setChannel c x)) (hc : x.CountsOk)
    (hx : s.engine.service = .move → s.engine.server = .channel c → 1 ≤ x.remaining.toNat) :
    CountsLaw (s.setChannel c x) := by
  refine ⟨hs, fun k => ?_, fun k hv hw => ?_⟩
  · rw [State.setChannel_channels, set_getElem]
    split
    · exact hc
    · exact p.countsOk k
  · rw [State.setChannel_channels, set_getElem]
    split
    · rename_i hk; exact hx hv (hk ▸ hw)
    · exact p.2.2 k hv hw

/-- One channel that is not ACTIVE goes to another such state. -/
theorem CountsLaw.moveChannel {s : State} (p : CountsLaw s) (c : ChannelId) {x : Channel}
    (hs : s.channels[c].state ≠ .active) (hx : x.state ≠ .active) (hc : x.CountsOk) :
    CountsLaw (s.setChannel c x) :=
  p.setChannel c (p.1.moveChannel c hs hx) hc fun hv hw =>
    absurd (p.1.active (by rw [hv]; decide) hw) hs

/-- A service of channel `c`, or none, is over, and the channel is counted. -/
theorem CountsLaw.stop {s t : State} (p : CountsLaw s) (c : ChannelId) (ht : ServiceLaw t)
    (hv : t.engine.service = .none) (hk : ∀ k : ChannelId, k ≠ c → t.channels[k] = s.channels[k])
    (hc : t.channels[c].CountsOk) : CountsLaw t := by
  refine countsLaw_of_noMove ht (fun k => ?_) (.inl (by rw [hv]; decide))
  by_cases hkc : k = c
  · rw [hkc]; exact hc
  · rw [hk k hkc]; exact p.countsOk k

theorem CountsLaw.writeAndEnd {s : State} (p : CountsLaw s) (c : ChannelId) {x : Channel} {st : ChannelState}
    (hx : x.Counted) (hfree : s.engine.service = .none ∨ s.engine.server = .channel c) (hst : st ≠ .active) :
    CountsLaw ((s.setChannel c x).endService c st) := by
  refine p.stop c (p.1.writeAndEnd c x hfree hst) rfl (fun k hk => ?_) ?_
  · rw [setChannel_endService, State.freeEngine_channels, State.setChannel_channels, set_getElem, if_neg hk]
  · rw [setChannel_endService, State.freeEngine_channels, setChannel_same]
    exact (hx.leave st).ok

theorem CountsLaw.endService {s : State} (p : CountsLaw s) (c : ChannelId) {st : ChannelState}
    (hv : s.engine.service ≠ .none) (hw : s.engine.server = .channel c) (hst : st ≠ .active) :
    CountsLaw (s.endService c st) := by
  refine p.stop c (p.1.endService c (.inr hw) hst) rfl (fun k hk => ?_) ?_
  · rw [endService_eq, set_getElem, if_neg hk]
  · rw [State.endService, State.freeEngine_channels, State.modChannel, setChannel_same]
    exact ((p.served hv hw).leave st).ok

theorem takeFault_counted {s : State} {c : ChannelId} (h : s.channels[c].Counted) (r : FaultRecord) :
    (s.takeFault c r).channels[c].Counted := by
  obtain ⟨-, hc⟩ := takeFault_reported (s := s) (u := s) (c := c) (r := r) rfl rfl
  rw [hc, set_getElem, if_pos rfl]
  split
  · exact h
  · split <;> exact h

theorem CountsLaw.popFault {s : State} (p : CountsLaw s) : CountsLaw s.popFault := by
  refine ⟨p.1.popFault, ?_⟩
  cases h : s.firstWaiting with
  | none => rw [popFault_of_none h]; exact p.2
  | some c =>
    have hwait := (firstWaiting_eq_some_iff.mp h).1
    have hmoved := p.moveChannel c (x := { s.channels[c] with state := .faulted, held := none })
      (by rw [hwait]; decide) nofun (p.counted hwait (by decide)).keeps
    rw [popFault_of_some h]
    exact hmoved.2

theorem CountsLaw.loaded {s t : State} (p : CountsLaw s) (hmode : s.urgent.mode = .urgentRestore)
    (h : s.imageFault = none) (hc : t.channels = s.loadImage.channels) (he : t.engine = s.engine)
    (hrun : t.urgent.mode ≠ .urgentRun) : CountsLaw t := by
  have hfree : t.engine.service = .none := by rw [he]; exact p.1.1.free (.inr (.inr (.inl hmode)))
  refine countsLaw_of_noMove (p.1.loaded hmode h hc he hrun) (fun c => ?_) (.inl (by rw [hfree]; decide))
  rw [hc, loadImage_getElem]
  exact loadRecord_countsOk (recordFault_of_imageFault h c)

/-- One beat less remains (R113). -/
theorem remaining_sub_one {x y : Channel} (h : x.Counted) (hr : 1 ≤ x.remaining.toNat)
    (hcount : y.count = x.count := by rfl) (hremaining : y.remaining = x.remaining - 1 := by rfl) : y.Counted := by
  obtain ⟨h1, h2⟩ := h
  unfold Channel.Counted
  rw [hcount, hremaining, BitVec.toNat_sub_of_le (by rw [BitVec.le_def]; exact hr)]
  exact ⟨h1, by omega⟩

/-- The law survives every move of a command. -/
theorem kept_countsLaw : Kept CountsLaw where
  same p hc hq hv hw hmode hstep hlatch := by
    refine ⟨kept_serviceLaw.same p.1 hc hq hv hw hmode hstep hlatch, ?_⟩
    rw [hc, hv, hw]
    exact p.2
  start c _ _ _ p h := p.moveChannel c (by rcases h with h | h <;> rw [h] <;> decide) nofun
    (Channel.Counted.ok ⟨le_refl 1, Nat.zero_le 1⟩)
  halt c p h := p.moveChannel c (by rcases h with h | h <;> rw [h] <;> decide) nofun
    (h.elim (p.counted · (by decide)) (p.counted · (by decide))).keeps
  pend c _ _ p h := p.setChannel c (p.1.setChannel c Iff.rfl) (p.counted h (by decide)).keeps (p.2.2 c)
  continue_ c p h := p.moveChannel c (by rcases h with h | h <;> rw [h] <;> decide) nofun
    (h.elim (p.counted · (by decide)) (p.counted · (by decide))).keeps
  skip c p h := p.moveChannel c (by rcases h with h | h <;> rw [h] <;> decide) nofun
    (h.elim (p.counted · (by decide)) (p.counted · (by decide))).keeps
  skipAdvance c p h := p.moveChannel c (by rcases h with h | h <;> rw [h] <;> decide)
    (by rw [Channel.advance_state]; split <;> decide)
    (h.elim (p.counted · (by decide)) (p.counted · (by decide))).advance.ok
  abort c p _ h := p.moveChannel c h nofun (Channel.countsOk_of_idle rfl)
  pop p _ := p.popFault
  sweep {s} p h := countsLaw_of_noMove (kept_serviceLaw.sweep p.1 h) (fun c => Channel.countsOk_of_idle (by
      change (s.mapChannels (fun _ x => x.sweep)).channels[c].state = _
      rw [mapChannels_getElem]; rfl))
    (.inl (by
      change s.engine.service ≠ .move
      rw [p.1.1.free (.inr (.inr (.inr h)))]; decide))
  wake {s} lines p h := by
    have key : ∀ c : ChannelId, (s.channels[c].wake lines).CountsOk
        ∧ (s.channels[c].wake lines).remaining = s.channels[c].remaining := fun c => by
      rcases s.channels[c].wake_cases lines with e | ⟨hw, e⟩ <;> rw [e]
      · exact ⟨p.countsOk c, rfl⟩
      · exact ⟨(p.counted hw (by decide)).keeps, rfl⟩
    refine ⟨kept_serviceLaw.wake lines p.1 h, fun c => ?_, fun c => ?_⟩ <;> rw [mapChannels_getElem]
    · exact (key c).1
    · rw [(key c).2]; exact p.2.2 c
  grant c v p hmode hfree hready hv hbeats := by
    refine ⟨p.1.grant c hmode hfree hv, fun k => ?_, fun k hmove hw => ?_⟩
    · rw [State.startService_channels, State.setChannel_channels, set_getElem]
      split
      · exact (p.counted hready (by decide)).keeps
      · exact p.countsOk k
    · obtain rfl : c = k := Server.channel.inj hw
      rw [State.startService_channels, setChannel_same]
      exact one_le_toNat (hbeats hmove)
  grantDone c p _ hfree hready := p.writeAndEnd c (p.counted hready (by decide)) (.inl hfree) nofun
  ends c st p hv hw hst := p.endService c hv hw (by rcases hst with rfl | rfl <;> decide)
  faults {s} c r p hv hw := p.stop c (kept_serviceLaw.faults c r p.1 hv hw) rfl (fun _ hk => takeFault_others s c r hk)
    (takeFault_counted (p.served hv hw) r).ok
  holds f p hv hw := countsLaw_of_noMove (kept_serviceLaw.holds f p.1 hv hw) p.2.1 (.inl nofun)
  load c d p _ hw hd := p.writeAndEnd c ⟨count_of_formatOk hd, le_rfl⟩ (.inr hw) nofun
  beat c p hv hw hr := p.setChannel c (p.1.setChannel c Iff.rfl)
    (remaining_sub_one (p.served (by rw [hv]; decide) hw) (p.2.2 c hv hw)).ok fun _ _ => one_le_toNat hr
  lastBeat c p hv hw _ := p.writeAndEnd c
    (remaining_sub_one (p.served (by rw [hv]; decide) hw) (p.2.2 c hv hw)) (.inr hw) nofun
  advance c p hv hw := p.writeAndEnd c (p.served hv hw).advance (.inr hw) (by split <;> decide)
  serveUrgent v p hv hw hne := countsLaw_of_noMove (kept_serviceLaw.serveUrgent v p.1 hv hw hne) p.2.1 (.inr rfl)
  run l p hl h := countsLaw_of_noMove (kept_serviceLaw.run l p.1 hl h) p.2.1 (.inr rfl)
  restore p h := countsLaw_of_noMove (kept_serviceLaw.restore p.1 h) p.2.1 (.inl nofun)
  entry p h := ⟨kept_serviceLaw.entry p.1 h, p.2⟩
  latch src p h := ⟨kept_serviceLaw.latch src p.1 h, p.2⟩
  save p hmode hfree := ⟨kept_serviceLaw.save p.1 hmode hfree, p.2⟩
  lock p h := ⟨kept_serviceLaw.lock p.1 h, p.2⟩
  restored p hmode h _ := p.loaded hmode h rfl rfl nofun
  entered p hmode h := p.loaded hmode h rfl rfl nofun
  reset hc hq hv hmode hlatch := countsLaw_of_noMove (kept_serviceLaw.reset hc hq hv hmode hlatch)
    (fun c => Channel.countsOk_of_idle (by rw [hc]; simp [Channel.reset])) (.inl (by rw [hv]; decide))

/-- Settles O39: law 10 survives every move of a command, and so every step. -/
theorem countsLawKept : Obligations.CountsLawKept := fun s t => kept_step kept_countsLaw s t

end Sys2Proof.Machine
end

section
/-! SUPPORT. What a command can do to the domain table, the grant map, the translation cache, the bindings of the channels and
the commands that wait, said once: they stand but for marks, installs and invalidations in the cache and for new bindings,
or the command is one of the few that write a table or reset the part. -/

namespace Sys2Proof.Machine

/-- The channel is neither IDLE nor DONE (R12, R13). -/
def Channel.Live (x : Channel) : Prop := x.state ≠ .idle ∧ x.state ≠ .done

/-! ### States that share the tables -/

/-- `t` has the tables and the waiting commands of `s`, its cache is one that the part's operations make of that of `s`, and
its valid entries and live channels are of domains in `D`. -/
structure Tables (D : DomainId → Prop) (s t : State) : Prop where
  domains : t.domains = s.domains
  grants : t.grants = s.grants
  pending : t.pending = s.pending
  cache : ∀ P, CacheClosed P → P s.cache → P t.cache
  tags : ∀ (i : Fin 16) (w : Fin 4), t.cache[i][w].valid = true → D t.cache[i][w].domain
  live : ∀ c : ChannelId, t.channels[c].Live → D t.channels[c].domain

/-- The channel served is bound to a domain in `D`. -/
def Served (D : DomainId → Prop) (s : State) : Prop :=
  ∀ c : ChannelId, s.engine.service ≠ .none → s.engine.server = .channel c → D s.channels[c].domain

/-- The walk that the Engine has asked for is for a domain in `D`. -/
def Walked (D : DomainId → Prop) (s : State) : Prop :=
  s.walker.state ≠ .idle → s.walker.requester = .engine → D s.walker.request.domain

variable {D : DomainId → Prop} {s t u : State}

theorem Served.of_same (h : Served D t) (he : u.engine.service = t.engine.service := by rfl)
    (hw : u.engine.server = t.engine.server := by rfl) (hc : u.channels = t.channels := by rfl) : Served D u := by
  unfold Served
  rw [he, hw, hc]
  exact h

theorem served_of_free (h : t.engine.service = .none) : Served D t := fun _ hv => absurd h hv

theorem served_of_urgent (h : t.engine.server = .urgent) : Served D t := fun c _ hw => by rw [h] at hw; cases hw

theorem served_startService (w : Server) (v : Service) (h : ∀ c, w = .channel c → D t.channels[c].domain) :
    Served D (t.startService w v) := fun c _ hw => h c hw

/-! ### The moves -/

theorem Tables.unmoved (p : Tables D s t) (hd : u.domains = t.domains := by rfl) (hg : u.grants = t.grants := by rfl)
    (hp : u.pending = t.pending := by rfl) (hc : u.cache = t.cache := by rfl)
    (hch : u.channels = t.channels := by rfl) : Tables D s u where
  domains := hd.trans p.domains
  grants := hg.trans p.grants
  pending := hp.trans p.pending
  cache := hc ▸ p.cache
  tags := hc ▸ p.tags
  live := hch ▸ p.live

/-- The same, where the tables are seen to be those of `s`. -/
theorem Tables.of_cache (p : Tables D s t) (hd : u.domains = s.domains) (hg : u.grants = s.grants)
    (hp : u.pending = s.pending) (hc : u.cache = t.cache) (hch : u.channels = t.channels) : Tables D s u where
  domains := hd
  grants := hg
  pending := hp
  cache := hc ▸ p.cache
  tags := hc ▸ p.tags
  live := hch ▸ p.live

/-- The channels are written: the new bindings are in `D`. -/
theorem Tables.channels (p : Tables D s t) (hch : ∀ c : ChannelId, u.channels[c].Live → D u.channels[c].domain)
    (hd : u.domains = t.domains := by rfl) (hg : u.grants = t.grants := by rfl)
    (hp : u.pending = t.pending := by rfl) (hc : u.cache = t.cache := by rfl) : Tables D s u where
  domains := hd.trans p.domains
  grants := hg.trans p.grants
  pending := hp.trans p.pending
  cache := hc ▸ p.cache
  tags := hc ▸ p.tags
  live := hch

theorem Tables.setChannel (p : Tables D s t) (c : ChannelId) {x : Channel} (hx : x.Live → D x.domain) :
    Tables D s (t.setChannel c x) := p.channels fun k => by
  rw [State.setChannel_channels, set_getElem]
  split
  · exact hx
  · exact p.live k

/-- A live channel that keeps its binding. -/
theorem Tables.rebind (p : Tables D s t) (c : ChannelId) {x : Channel} (hs : t.channels[c].Live)
    (hx : x.domain = t.channels[c].domain := by rfl) : Tables D s (t.setChannel c x) :=
  p.setChannel c fun _ => hx ▸ p.live c hs

theorem Tables.goes (p : Tables D s t) (h : Goes t u) : Tables D s u where
  domains := h.domains.trans p.domains
  grants := h.grants.trans p.grants
  pending := h.pending.trans p.pending
  cache P hP hs := h.cache P hP (p.cache P hP hs)
  tags i w hv := by
    rw [h.tags i w] at hv ⊢
    exact p.tags i w hv
  live := h.channels ▸ p.live

theorem Tables.invalidate (p : Tables D s t) (m : CacheEntry → Bool) : Tables D s (t.invalidate m) where
  domains := (State.invalidate_domains t m).trans p.domains
  grants := (State.invalidate_grants t m).trans p.grants
  pending := (State.invalidate_pending t m).trans p.pending
  cache P hP hs := hP.invalidate _ m (p.cache P hP hs)
  tags i w := by
    rw [invalidate_getElem]
    split
    · nofun
    · exact p.tags i w
  live := by
    rw [State.invalidate_channels]
    exact p.live

theorem Tables.invalidateOne (p : Tables D s t) (i : Fin 16) (m : CacheEntry → Bool) :
    Tables D s (t.setCacheSet i (invalidateSet t.cache[i] m)) where
  domains := p.domains
  grants := p.grants
  pending := p.pending
  cache P hP hs := hP.invalidateOne _ i m (p.cache P hP hs)
  tags k w := by
    rw [State.setCacheSet_cache, set_getElem]
    split
    · rw [invalidateSet_getElem]
      split
      · nofun
      · exact p.tags i w
    · exact p.tags k w
  live := p.live

/-- An install of a translation for a domain in `D` (R43). -/
theorem Tables.install (p : Tables D s t) {x : Translation} (hx : D x.domain) : Tables D s (t.install x) where
  domains := p.domains
  grants := p.grants
  pending := p.pending
  cache P hP hs := hP.install _ x (p.cache P hP hs)
  tags i w := by
    rw [State.install_cache, set_getElem]
    split
    · rw [installInto_getElem]
      split
      · exact fun _ => hx
      · exact p.tags _ w
    · exact p.tags i w
  live := p.live

theorem Channel.leave_domain (x : Channel) (st : ChannelState) : (x.leave st).domain = x.domain := by
  rw [leave_eq, Channel.afterService]
  split <;> rfl

theorem takeFault_domain (s : State) (c : ChannelId) (r : FaultRecord) :
    (s.takeFault c r).channels[c].domain = s.channels[c].domain := by
  obtain ⟨-, hc⟩ := takeFault_reported (s := s) (u := s) (c := c) (r := r) rfl rfl
  rw [hc, set_getElem, if_pos rfl]
  split
  · rfl
  · split <;> rfl

theorem Tables.endService (p : Tables D s t) (c : ChannelId) (st : ChannelState) (h : D t.channels[c].domain) :
    Tables D s (t.endService c st) := by
  have := p.setChannel c (x := t.channels[c].leave st) fun _ => by rw [Channel.leave_domain]; exact h
  exact this.unmoved

theorem Tables.writeAndEnd (p : Tables D s t) (c : ChannelId) (x : Channel) (st : ChannelState) (h : D x.domain) :
    Tables D s ((t.setChannel c x).endService c st) := by
  rw [setChannel_endService]
  exact (p.setChannel c fun _ => by rw [Channel.leave_domain]; exact h).unmoved

theorem Tables.takeFault (p : Tables D s t) (c : ChannelId) (r : FaultRecord) (h : D t.channels[c].domain) :
    Tables D s (t.takeFault c r) := p.channels fun k hk => by
  by_cases hkc : k = c
  · rw [hkc, takeFault_domain]; exact h
  · rw [takeFault_others t c r hkc] at hk ⊢; exact p.live k hk

theorem Tables.acts (p : Tables D s t) (h : Acts t u) (hs : ∀ c, t.engine.server = .channel c → D t.channels[c].domain) :
    Tables D s u := by
  cases h with
  | goes h => exact p.goes h
  | ends c st h hw _ => exact (p.goes h).endService c st (by rw [h.channels]; exact hs c hw)
  | faults c k a addr h hw => exact ((p.goes h).takeFault c _ (by rw [h.channels]; exact hs c hw)).unmoved
  | holds f h _ => exact (p.goes h).unmoved

theorem Served.acts (h : Served D t) (hv : t.engine.service ≠ .none) (c : ChannelId)
    (hw : t.engine.server = .channel c) : D t.channels[c].domain := h c hv hw

/-! ### The operations of the Engine -/

theorem Tables.engineAnswer (p : Tables D s t) (hs : Served D t) (a : Answer) : Tables D s (t.engineAnswer a) := by
  by_cases hv : t.engine.service = .none
  · have e : t.engineAnswer a = t := by unfold State.engineAnswer; rw [hv]
    rw [e]; exact p
  · exact p.acts (Acts.engineAnswer t a) (hs.acts hv)

theorem Tables.nextBeat (p : Tables D s t) (hv : t.engine.service ≠ .none) (hs : Served D t) :
    Tables D s t.nextBeat := by
  cases hw : t.engine.server with
  | channel c =>
    rcases nextBeat_channel t c hw with ⟨-, e⟩ | ⟨-, e⟩
    · rw [e]
      exact p.writeAndEnd c _ .ready (hs c hv hw)
    · exact p.acts e (hs.acts hv)
  | urgent =>
    rcases nextBeat_urgent t hw with ⟨-, e⟩ | ⟨-, e⟩
    · exact (p.unmoved).acts e nofun
    · exact p.acts e (hs.acts hv)

theorem Tables.serviceBegin (p : Tables D s t) (w : Server) (ph : Phase)
    (hs : ∀ c, w = .channel c → D t.channels[c].domain) : Tables D s (t.serviceBegin w ph) := by
  cases ph with
  | fetch => exact p.unmoved.acts (Acts.fetchBegin t w) hs
  | move => exact (p.unmoved (u := t.startService w .move)).nextBeat nofun (served_startService w .move hs)
  | writeback => exact p.unmoved.acts (Acts.writebackBegin t w) hs

theorem Tables.startRun (p : Tables D s t) : Tables D s t.startRun :=
  (p.unmoved (u := { t with urgent := { t.urgent with
    mode := .urgentRun, fault := .none
    u := { UContext.reset with position := t.urgent.listBase.setWidth 32 } } })).serviceBegin .urgent .fetch nofun

theorem Tables.rerunOrRestore (p : Tables D s t) : Tables D s t.rerunOrRestore := by
  unfold State.rerunOrRestore
  split
  · exact (p.unmoved (u := { t with urgent := { t.urgent with latch := none } })).startRun
  · exact p.unmoved

theorem Tables.failAction (p : Tables D s t) (hv : t.engine.service ≠ .none) (hs : Served D t) (k : FaultKind)
    (a : FaultAccess) (addr : BitVec 22) : Tables D s (t.failAction k a addr) :=
  p.acts (Acts.failAction t k a addr) (hs.acts hv)

theorem Tables.fetchDone (p : Tables D s t) (hv : t.engine.service ≠ .none) (hs : Served D t) :
    Tables D s t.fetchDone := by
  unfold State.fetchDone
  dsimp only
  split
  · split
    · rename_i c hw
      exact p.writeAndEnd c _ .ready (hs c hv hw)
    · exact (p.unmoved (u := t.modU _)).serviceBegin .urgent .move nofun
  · exact p.failAction hv hs _ _ _

theorem Tables.fetchReadEnd (p : Tables D s t) (hv : t.engine.service = .fetch) (hs : Served D t) (a : Access)
    (e : BusEnd) : Tables D s (t.fetchReadEnd a e) := by
  have hne : t.engine.service ≠ .none := by rw [hv]; decide
  cases e with
  | busError => exact p.failAction hne hs _ _ _
  | ready sd =>
    have p' : Tables D s (t.modEngine fun x => { x with fetched := x.fetched ++ [a.taken sd] }) := p.unmoved
    unfold State.fetchReadEnd
    dsimp only
    split
    · exact p'.fetchDone hne (hs.of_same rfl rfl rfl)
    · exact p'.acts (Acts.fetchNext _) (hs.acts hne)

theorem Tables.beatReadEnd (p : Tables D s t) (hv : t.engine.service = .move) (hs : Served D t) (a : Access)
    (e : BusEnd) : Tables D s (t.beatReadEnd a e) := by
  cases e with
  | busError => exact p.failAction (by rw [hv]; decide) hs _ _ _
  | ready sd => exact (p.unmoved (u := t.modEngine _)).goes (Goes.issueWrite _)

/-- An element that is written back to its party changes no binding (R113). -/
theorem Tables.putElement (p : Tables D s t) (hv : t.engine.service ≠ .none) (hs : Served D t) (e : Element) :
    Tables D s (t.putElement e) := by
  unfold State.putElement
  split
  · rename_i c hw
    exact p.setChannel c fun _ => hs c hv hw
  · exact p.unmoved

theorem served_putElement (hs : Served D t) (e : Element) : Served D (t.putElement e) := by
  unfold State.putElement
  split
  · rename_i c hw
    intro k hv hk
    obtain rfl : c = k := Server.channel.inj (hw.symm.trans hk)
    rw [State.modChannel, setChannel_same]
    exact hs c hv hw
  · exact hs.of_same rfl rfl rfl

theorem putElement_engine (s : State) (e : Element) : (s.putElement e).engine = s.engine := by
  unfold State.putElement
  split <;> rfl

theorem Tables.beatWriteEnd (p : Tables D s t) (hv : t.engine.service = .move) (hs : Served D t) (e : BusEnd) :
    Tables D s (t.beatWriteEnd e) := by
  have hne : t.engine.service ≠ .none := by rw [hv]; decide
  cases e with
  | busError => exact p.failAction hne hs _ _ _
  | ready sd =>
    have p' := p.putElement hne hs t.element.advance
    have hs' := served_putElement hs t.element.advance
    have hne' : (t.putElement t.element.advance).engine.service ≠ .none := by rw [putElement_engine]; exact hne
    exact (p'.unmoved (u := State.modEngine _ _)).nextBeat hne' (hs'.of_same rfl rfl rfl)

theorem Tables.statusWriteEnd (p : Tables D s t) (hv : t.engine.service = .writeback) (hs : Served D t) (e : BusEnd) :
    Tables D s (t.statusWriteEnd e) := by
  have hne : t.engine.service ≠ .none := by rw [hv]; decide
  cases e with
  | busError => exact p.failAction hne hs _ _ _
  | ready sd =>
    unfold State.statusWriteEnd
    dsimp only
    split
    · rename_i c hw
      rw [markDone_window]
      have hD : D t.channels[c].advance.domain := by
        unfold Channel.advance
        split <;> exact hs c hne hw
      exact (p.writeAndEnd c t.channels[c].advance _ hD).unmoved
    · split
      · unfold State.urgentChainEnd
        split
        · exact p.unmoved
        · exact p.rerunOrRestore
      · split
        · exact p.unmoved
        · exact (p.unmoved (u := t.modU _)).serviceBegin .urgent .fetch nofun

/-! ### The walker -/

theorem Tables.deliverFault (p : Tables D s t) (hs : Served D t) (k : FaultKind) : Tables D s (t.deliverFault k) := by
  unfold State.deliverFault
  split
  · exact (p.unmoved (u := t.endWalk)).engineAnswer (hs.of_same rfl rfl rfl) _
  · exact p.unmoved

theorem Tables.deliverDeclined (p : Tables D s t) (hs : Served D t) : Tables D s t.deliverDeclined := by
  unfold State.deliverDeclined
  split
  · exact (p.unmoved (u := t.endWalk)).engineAnswer (hs.of_same rfl rfl rfl) _
  · exact p.unmoved

/-- A walk of the Engine installs what it delivers (R27). -/
theorem Tables.deliver (p : Tables D s t) (hs : Served D t)
    (hw : t.walker.requester = .engine → D t.walker.request.domain) (written : Bool) :
    Tables D s (t.deliver written) := by
  unfold State.deliver
  dsimp only
  split
  · rename_i hr
    exact ((p.unmoved (u := t.endWalk)).install (hw hr)).engineAnswer (hs.of_same rfl rfl rfl) _
  · exact p.unmoved

theorem Tables.startWalk (p : Tables D s t) (hs : Served D t) (q : Requester) (r : WalkRequest) :
    Tables D s (t.startWalk q r) := by
  unfold State.startWalk
  dsimp only
  split
  · exact (p.unmoved (u := t.modWalker _)).deliverFault (hs.of_same rfl rfl rfl) _
  · exact p.unmoved

theorem Tables.dirWord (p : Tables D s t) (hs : Served D t) (x : Word) : Tables D s (t.dirWord x) := by
  unfold State.dirWord
  dsimp only
  split
  · split
    · exact p.unmoved
    · exact (p.unmoved (u := t.modWalker _)).deliverFault (hs.of_same rfl rfl rfl) _
  · exact p.unmoved

theorem Tables.walkChecks (p : Tables D s t) (hs : Served D t)
    (hw : t.walker.requester = .engine → D t.walker.request.domain) : Tables D s t.walkChecks := by
  unfold State.walkChecks
  dsimp only
  split
  · exact p.deliverFault hs _
  · split
    · exact p.unmoved
    · exact p.deliver hs hw _

theorem Tables.pageWord (p : Tables D s t) (hs : Served D t)
    (hw : t.walker.requester = .engine → D t.walker.request.domain) (x : Word) : Tables D s (t.pageWord x) := by
  unfold State.pageWord
  dsimp only
  split
  · split
    · exact (p.unmoved (u := t.modWalker _)).walkChecks (hs.of_same rfl rfl rfl) hw
    · exact (p.unmoved (u := t.modWalker _)).deliverFault (hs.of_same rfl rfl rfl) _
  · exact p.unmoved

theorem Tables.walkAccessEnd (p : Tables D s t) (hs : Served D t) (hw : Walked D t) (a : Access) (e : BusEnd) :
    Tables D s (t.walkAccessEnd a e) := by
  unfold State.walkAccessEnd
  split
  · split
    · exact p.startWalk hs _ _
    · exact p.deliverDeclined hs
  · split
    · exact p.deliverFault hs _
    · exact p.dirWord hs _
    · rename_i hst; exact p.pageWord hs (hw (by rw [hst]; decide)) _
    · rename_i hst; exact p.deliver hs (hw (by rw [hst]; decide)) _
    · exact p

theorem Tables.takeRequest (p : Tables D s t) (hs : Served D t) : Tables D s t.takeRequest := by
  unfold State.takeRequest
  split
  · exact (p.unmoved (u := t.modWalker _)).startWalk (hs.of_same rfl rfl rfl) _ _
  · exact (p.unmoved (u := t.modWalker _)).startWalk (hs.of_same rfl rfl rfl) _ _
  · exact p

/-! ### The Urgent Controller, the resets and the ends of accesses -/

theorem Tables.settleBus (p : Tables D s t) : Tables D s t.settleBus := by
  unfold State.settleBus
  split
  · exact p
  · exact p.unmoved

theorem Tables.declineWaiting (p : Tables D s t) (hs : Served D t) : Tables D s t.declineWaiting := by
  have h : Tables D s (match t.walker.engineWaiting with
      | some _ => ((t.modWalker (fun w => { w with engineWaiting := none })).engineAnswer .declined).settleBus
      | none => t) := by
    split
    · exact ((p.unmoved (u := t.modWalker _)).engineAnswer (hs.of_same rfl rfl rfl) _).settleBus
    · exact p
  unfold State.declineWaiting
  dsimp only
  split
  · exact h.unmoved
  · exact h

theorem Tables.urgentRequest (p : Tables D s t) (hs : Served D t) (src : Source) :
    Tables D s (t.urgentRequest src) := by
  have hlatch : Tables D s (match t.urgent.latch with
      | none => { t with urgent := { t.urgent with latch := some src } }
      | some _ => t) := by
    split
    · exact p.unmoved
    · exact p
  unfold State.urgentRequest
  split
  · exact (p.unmoved (u := { t with urgent := _ })).declineWaiting (hs.of_same rfl rfl rfl)
  all_goals first | exact hlatch | exact p

theorem Channel.reset_not_live : ¬ Channel.reset.Live := fun h => h.1 rfl

/-- The reset keeps the tables, clears the cache and leaves every channel in its reset state (R15, R59, R100). -/
theorem Tables.resetBlocks (p : Tables D s t) : Tables D s t.resetBlocks := by
  have h := p.invalidate fun _ => true
  unfold State.resetBlocks State.clearCache
  generalize t.invalidate (fun _ => true) = v at h
  refine (h.channels (u := { v with channels := Vector.replicate 8 Channel.reset }) fun c hc => ?_).of_cache
    p.domains p.grants p.pending rfl rfl
  refine absurd hc ?_
  simpa using Channel.reset_not_live

theorem Tables.completeEngineReset (p : Tables D s t) : Tables D s t.completeEngineReset := by
  have h := p.resetBlocks
  have hfree : t.resetBlocks.engine.service = .none := rfl
  unfold State.completeEngineReset State.urqAfterReset
  generalize t.resetBlocks = v at h hfree
  split
  · exact (h.unmoved (u := { v with urgent := { v.urgent with armed := false } })).urgentRequest
      (served_of_free hfree) _
  · exact h

theorem Tables.beginEngineReset (p : Tables D s t) : Tables D s t.beginEngineReset := by
  unfold State.beginEngineReset
  split
  · exact p
  · split
    · exact p.completeEngineReset
    · exact p.unmoved

/-- What a slot has in flight is the access in flight (R172). -/
theorem carries_eq_some {b : Sbi} {r : Slot} {a : Access} (h : b.carries r = some a) : b.inFlight = some (r, a) := by
  unfold Sbi.carries at h
  split at h
  · rename_i hin
    split at h
    · rename_i hq
      rw [hin, hq, Option.some.inj h]
    · cases h
  · cases h

theorem Tables.accessEnd (p : Tables D s t) (r : Slot) (on : Bool) (act : State → Access → State)
    (hact : ∀ a, on = true → t.sbi.inFlight = some (r, a) → Tables D s (act { t with sbi := t.sbi.ended } a)) :
    Tables D s (t.accessEnd r on act) := by
  unfold State.accessEnd
  split
  · exact p
  · rename_i a ha
    split
    · split
      · exact p.completeEngineReset
      · exact (hact a (by assumption) (carries_eq_some ha)).settleBus
    · exact p

theorem Channel.skip_domain (x : Channel) : x.skip.domain = x.domain := by
  have hadvance : x.advance.domain = x.domain := by
    unfold Channel.advance
    split <;> rfl
  unfold Channel.skip
  split
  · dsimp only
    split <;> exact hadvance
  · rfl
  · rfl

/-- A load gives the record's domain, and no disposition changes it (R163, R164). -/
theorem loadRecord_domain (x : Channel) (r : ImageRecord) :
    (x.loadRecord r).domain = (domainOfCode r.domain).getD 0 := by
  unfold Channel.loadRecord
  split
  · rfl
  · exact Channel.skip_domain _
  · rfl

/-- What passes validation loads a live channel only with an OPEN domain (R161). -/
theorem loadRecord_live {x : Channel} {r : ImageRecord} (h : s.recordFault x.state r = none)
    (hl : (x.loadRecord r).Live) : s.domains[(x.loadRecord r).domain].state = .opened := by
  obtain ⟨st, hst, -, -, hallowed, hcontext⟩ := recordFault_none h
  obtain ⟨hidle, hdone⟩ : st ≠ .idle ∧ st ≠ .done := by
    rcases loadRecord_state (x := x) hst with ⟨-, -, hload⟩ | ⟨hd, -⟩
    · unfold Channel.Live at hl
      rwa [hload, restore_state hst] at hl
    · have := hallowed hd
      constructor <;> rintro rfl <;> simp [dispositionAllowed] at this
  have hok := hcontext hidle
  simp only [State.contextOk, Bool.and_eq_true] at hok
  obtain ⟨⟨⟨⟨⟨⟨⟨⟨⟨⟨⟨⟨⟨hopen, -⟩, -⟩, -⟩, -⟩, -⟩, -⟩, -⟩, -⟩, -⟩, -⟩, -⟩, -⟩, -⟩ := hok
  have hdomain := loadRecord_domain x r
  split at hopen
  · rename_i d hd
    rw [hd, Option.getD_some] at hdomain
    simpa [hdone, hdomain] using hopen
  · cases hopen

theorem Tables.loadImage (p : Tables D s t) (h : t.imageFault = none)
    (hopen : ∀ d, t.domains[d].state = .opened → D d) : Tables D s t.loadImage := p.channels fun c hc => by
  rw [loadImage_getElem] at hc ⊢
  exact hopen _ (loadRecord_live (recordFault_of_imageFault h c) hc)

theorem Channel.wake_binding (x : Channel) (lines : BitVec 8) :
    (x.wake lines).domain = x.domain ∧ ((x.wake lines).Live → x.Live) := by
  rcases x.wake_cases lines with e | ⟨hw, e⟩ <;> rw [e]
  · exact ⟨rfl, id⟩
  · exact ⟨rfl, fun _ => ⟨by rw [hw]; decide, by rw [hw]; decide⟩⟩

theorem Tables.wakeLines (p : Tables D s t) (lines : BitVec 8) : Tables D s (t.wakeLines lines) := by
  unfold State.wakeLines
  split
  · refine p.channels fun c hc => ?_
    rw [mapChannels_getElem] at hc ⊢
    obtain ⟨hd, hl⟩ := t.channels[c].wake_binding lines
    rw [hd]
    exact p.live c (hl hc)
  · exact p

theorem Tables.relocate (p : Tables D s t) : Tables D s t.relocate := by
  unfold State.relocate
  dsimp only
  split
  · exact p.unmoved
  · exact (p.unmoved (u := { t with urgent := _ })).wakeLines _

theorem Tables.restoreReadEnd (p : Tables D s t) (hopen : ∀ d, t.domains[d].state = .opened → D d) (a : Access)
    (e : BusEnd) : Tables D s (t.restoreReadEnd a e) := by
  cases e with
  | busError => exact p.unmoved
  | ready sd =>
    have p' : Tables D s { t with urgent := { t.urgent with
        image := t.urgent.image ++ [a.taken sd], readProgress := t.urgent.readProgress + 1 } } := p.unmoved
    unfold State.restoreReadEnd
    dsimp only
    split
    · unfold State.finishRestore
      split
      · exact p'.unmoved
      · exact (p'.loadImage (by assumption) hopen).relocate
    · exact p'.unmoved

theorem Tables.saveWriteEnd (p : Tables D s t) (e : BusEnd) : Tables D s (t.saveWriteEnd e) := by
  cases e with
  | busError => exact p.unmoved
  | ready sd =>
    unfold State.saveWriteEnd
    dsimp only
    split
    · exact (p.unmoved (u := { t with urgent := _ })).startRun
    · exact p.unmoved

/-- A granted channel is live, as it was READY (R103). -/
theorem Tables.schedule (p : Tables D s t) : Tables D s t.schedule := by
  unfold State.schedule
  split
  · rename_i c hp hc
    have hready : t.channels[c].state = .ready := by
      unfold State.grantChoice at hc
      obtain ⟨q, -, hq⟩ := List.exists_of_findSome?_eq_some hc
      have := List.find?_some hq
      simp only [State.readyIn, Bool.and_eq_true, beq_iff_eq] at this
      exact this.1
    have hlive : t.channels[c].Live := ⟨by rw [hready]; decide, by rw [hready]; decide⟩
    have p' := p.rebind c (x := { t.channels[c] with state := .active }) hlive
    refine (p'.unmoved (u := { t.setChannel c { t.channels[c] with state := .active } with
      pointers := _ })).serviceBegin _ _ fun k hk => ?_
    obtain rfl : c = k := Server.channel.inj hk
    change D (t.setChannel c _).channels[c].domain
    rw [setChannel_same]
    exact p.live c hlive
  · exact p

end Sys2Proof.Machine
end

section
/-! SUPPORT. The table moves of every command. -/

namespace Sys2Proof.Machine

/-! ### The effects of the commands -/

section Effects

variable {D : DomainId → Prop} {s t : State}

theorem Tables.markStale (p : Tables D s t) (m : WalkRequest → Bool) : Tables D s (t.markStale m) := by
  unfold State.markStale
  split
  · exact p.unmoved
  · exact p

theorem Tables.sampleLines (p : Tables D s t) (preq : BitVec 8) : Tables D s (t.sampleLines preq) := p.unmoved

theorem Tables.invalidateAll (p : Tables D s t) : Tables D s t.invalidateAll := by
  unfold State.invalidateAll
  exact (p.invalidate _).markStale _

theorem Tables.invalidateDomain (p : Tables D s t) (d : DomainId) : Tables D s (t.invalidateDomain d) := by
  unfold State.invalidateDomain
  exact (p.invalidate _).markStale _

theorem Tables.invalidatePage (p : Tables D s t) (d : DomainId) (v : VAddr) : Tables D s (t.invalidatePage d v) := by
  unfold State.invalidatePage
  exact (p.invalidateOne _ _).markStale _

/-- The effect makes a table state of a table state. -/
def KeepsTables (D : DomainId → Prop) (f : Effect) : Prop :=
  ∀ (s t : State) (a : Args), Tables D s t → Served D t → (∀ d, t.domains[d].state = .opened → D d) →
    Tables D s (f a t).1

theorem keepsTables_onChannel {f : ChannelId → Channel → Effect}
    (hf : ∀ (s t : State) (a : Args) (c : ChannelId), Tables D s t → (∀ d, t.domains[d].state = .opened → D d) →
      Tables D s (f c t.channels[c] a t).1) : KeepsTables D (onChannel f) := by
  intro s t a p _ hopen
  unfold onChannel
  split
  · exact p
  · split
    · exact p
    · exact hf s t a _ p hopen

theorem keepsTables_invAll : KeepsTables D invAll := fun _ _ _ p _ _ => p.invalidateAll

theorem keepsTables_invDomain : KeepsTables D invDomain := by
  intro s t a p _ _
  unfold invDomain
  split
  · exact p
  · exact p.invalidateDomain _

theorem keepsTables_invPage : KeepsTables D invPage := by
  intro s t a p _ _
  unfold invPage
  split
  · exact p
  · split
    · exact p.invalidatePage _ _
    · exact p

theorem keepsTables_probe : KeepsTables D probe := by
  intro s t a p _ _
  unfold probe
  split
  · exact p
  · split
    · exact p
    · split
      · split
        · exact p
        · unfold State.probeLookup
          dsimp only
          split <;> exact p.unmoved
      · exact p

/-- The new binding is to an OPEN domain (R87). -/
theorem keepsTables_chStart : KeepsTables D chStart := keepsTables_onChannel fun s t a c p hopen => by
  split
  · exact p
  · split
    · exact p
    · split
      · split
        · exact p
        · rename_i d _ _ _ _ _ _ hd
          have hD : D d := hopen d (not_not.mp hd)
          exact (p.setChannel c (x := t.channels[c].start d _ a) fun _ => hD).unmoved
      · exact p

theorem live_of_state {x : Channel} {st : ChannelState} (h : x.state = st) (hidle : st ≠ .idle) (hdone : st ≠ .done) :
    x.Live := ⟨h ▸ hidle, h ▸ hdone⟩

theorem keepsTables_chHalt : KeepsTables D chHalt := keepsTables_onChannel fun s t a c p _ => by
  split <;> first | exact p | exact p.rebind c (live_of_state (by assumption) (by decide) (by decide))

theorem keepsTables_chContinue : KeepsTables D chContinue := keepsTables_onChannel fun s t a c p _ => by
  split <;> first | exact p | exact p.rebind c (live_of_state (by assumption) (by decide) (by decide))

theorem Channel.advance_domain (x : Channel) : x.advance.domain = x.domain := by
  unfold Channel.advance
  split <;> rfl

theorem keepsTables_chSkip : KeepsTables D chSkip := keepsTables_onChannel fun s t a c p _ => by
  have skipped (hl : t.channels[c].Live) : Tables D s
      ((t.setChannel c t.channels[c].advance).markDone c t.channels[c].control) := by
    rw [markDone_window]
    exact (p.rebind c hl (Channel.advance_domain _)).unmoved
  split
  · exact p.rebind c (live_of_state (by assumption) (by decide) (by decide))
  · exact p.rebind c (live_of_state (by assumption) (by decide) (by decide))
  · exact skipped (live_of_state (by assumption) (by decide) (by decide))
  · exact skipped (live_of_state (by assumption) (by decide) (by decide))
  · exact p

theorem keepsTables_chAbort : KeepsTables D chAbort := keepsTables_onChannel fun s t a c p _ => by
  have aborted : Tables D s (t.setChannel c t.channels[c].abort) := p.setChannel c fun h => absurd rfl h.1
  split <;> first
    | exact aborted
    | exact p
    | exact p.rebind c (live_of_state (by assumption) (by decide) (by decide))

theorem Tables.popFault (p : Tables D s t) : Tables D s t.popFault := by
  cases h : t.firstWaiting with
  | none => rw [popFault_of_none h]; exact p.unmoved
  | some c =>
    rw [popFault_of_some h]
    have hwait := (firstWaiting_eq_some_iff.mp h).1
    exact (p.rebind c (x := { t.channels[c] with state := .faulted, held := none })
      (live_of_state hwait (by decide) (by decide))).unmoved

theorem keepsTables_fqPop : KeepsTables D fqPop := by
  intro s t a p _ _
  unfold fqPop
  split
  · exact p
  · split
    · exact p
    · exact p.popFault

theorem keepsTables_urgentReq : KeepsTables D urgentReq := fun _ _ _ p hs _ => p.urgentRequest hs _

theorem keepsTables_resume : KeepsTables D resume := by
  intro s t a p _ _
  unfold resume
  split
  · exact p
  · exact p.rerunOrRestore

theorem keepsTables_lockClear : KeepsTables D lockClear := by
  intro s t a p _ _
  unfold lockClear
  split
  · exact p
  · have h : Tables D s (t.mapChannels (fun _ x => x.sweep)) := p.channels fun c hc => by
      rw [mapChannels_getElem] at hc
      exact absurd rfl hc.1
    exact h.unmoved

end Effects

/-! ### Every command -/

/-- The cache after the invalidation of the entries of domain `d` (R48). -/
def cacheWithout (v : Vector CacheSet 16) (d : DomainId) : Vector CacheSet 16 :=
  updateEach allSets (fun _ t => invalidateSet t (fun e => e.valid && e.domain == d)) v

/-- An entry that is valid after the invalidation stood before, and is of another domain. -/
theorem cacheWithout_valid {v : Vector CacheSet 16} {d : DomainId} {i : Fin 16} {w : Fin 4}
    (h : (cacheWithout v d)[i][w].valid = true) :
    v[i][w].valid = true ∧ (cacheWithout v d)[i][w].domain = v[i][w].domain ∧ v[i][w].domain ≠ d := by
  unfold cacheWithout at h ⊢
  rw [updateSets_getElem, invalidateSet_getElem] at h ⊢
  split at h
  · exact absurd h Bool.false_ne_true
  · rename_i hm
    rw [if_neg hm]
    refine ⟨h, rfl, fun hd => hm ?_⟩
    simp only [h, hd, beq_self_eq_true, Bool.and_self]

/-- What becomes of the tables in a step other than a hard reset: they stand as `Tables` says, or a CLOSED domain's record or
grant map is written, or, where `C` holds, an OPEN domain without a live channel is closed. -/
inductive TableMove (D : DomainId → Prop) (C : Prop) (s : State) : State → Prop
  | steady {t : State} : Tables D s t → TableMove D C s t
  | record (d : DomainId) (r : DomainRecord) (w : Window) : s.domains[d].state = .closed →
      TableMove D C s { s with domains := s.domains.set d r, window := w }
  | grant (d : DomainId) (g : GrantMap) (w : Window) : s.domains[d].state = .closed →
      TableMove D C s { s with grants := s.grants.set d g, window := w }
  | close (d : DomainId) (w : Window) : C → s.domains[d].state = .opened → s.domainBusy d = false →
      TableMove D C s { s with
        domains := s.domains.set d { s.domains[d] with state := .closed }
        cache := cacheWithout s.cache d
        walker := { s.walker with stale := s.walker.stale || (s.walker.state != .idle && s.walker.request.domain == d) }
        window := w }

/-- The state is one from which the tables are followed: its tags, bindings, service and walk are of domains in `D`, and so is
every OPEN domain. -/
structure Fits (D : DomainId → Prop) (s : State) : Prop where
  tables : Tables D s s
  served : Served D s
  walked : Walked D s
  opened : ∀ d, s.domains[d].state = .opened → D d

/-- With no condition on the domains every state fits. -/
theorem fits_true (s : State) : Fits (fun _ => True) s :=
  ⟨⟨rfl, rfl, rfl, fun _ _ h => h, fun _ _ _ => trivial, fun _ _ => trivial⟩, fun _ _ _ => trivial,
    fun _ _ => trivial, fun _ _ => trivial⟩

section Commands

variable {D : DomainId → Prop} {C : Prop} {s : State}

theorem TableMove.refl (F : Fits D s) : TableMove D C s s := .steady F.tables

theorem TableMove.ofSame (F : Fits D s) {t : State} (h : t = { s with
    walker := t.walker, pointers := t.pointers, engine := t.engine, queue := t.queue, urgent := t.urgent, sbi := t.sbi,
    window := t.window, pins := t.pins }) : TableMove D C s t := by
  rw [h]
  exact .steady F.tables.unmoved

/-- A command whose effect keeps the tables. -/
theorem tableMove_command (F : Fits D s) (code : Byte) {f : Effect} (hf : KeepsTables D f) :
    TableMove D C s (s.command code f) := by
  unfold State.command
  split
  · exact .steady F.tables.unmoved
  · exact .steady (hf s (s.latch code) _ F.tables.unmoved (F.served.of_same rfl rfl rfl) F.opened).unmoved

theorem tableMove_domOpen (F : Fits D s) (code : Byte) : TableMove D C s (s.command code domOpen) := by
  unfold State.command
  split
  · exact .steady F.tables.unmoved
  · unfold domOpen
    dsimp only
    split
    · exact .steady F.tables.unmoved
    · split
      · exact .steady F.tables.unmoved
      · split
        · exact .steady F.tables.unmoved
        · split
          · exact .steady F.tables.unmoved
          · rename_i hd _
            exact .record _ _ _ (not_not.mp hd)

/-- The effect of INV_DOMAIN field by field (R48, R51). -/
theorem invalidateDomain_eq (s : State) (d : DomainId) :
    s.invalidateDomain d = { s with
      cache := cacheWithout s.cache d
      walker := { s.walker with
        stale := s.walker.stale || (s.walker.state != .idle && s.walker.request.domain == d) } } := by
  unfold State.invalidateDomain
  rw [markStale_eq, State.invalidate_walker]
  rfl

theorem tableMove_domClose (F : Fits D s) (code : Byte) (hC : C) : TableMove D C s (s.command code domClose) := by
  unfold State.command
  split
  · exact .steady F.tables.unmoved
  · unfold domClose
    dsimp only
    split
    · exact .steady F.tables.unmoved
    · split
      · exact .steady F.tables.unmoved
      · split
        · exact .steady F.tables.unmoved
        · split
          · exact .steady F.tables.unmoved
          · rename_i d _ hd hbusy
            rw [invalidateDomain_eq]
            exact .close d ((s.latch code).setRes .ok).window hC (not_not.mp hd) (Bool.eq_false_iff.mpr hbusy)

/-- A write to CMD: code 02H is DOM_CLOSE (R176). -/
theorem tableMove_effect (F : Fits D s) (code : Byte) (hC : code.toNat = 2 → C) :
    TableMove D C s (s.command code (effectOf code)) := by
  unfold effectOf
  split
  · exact tableMove_domOpen F code
  · exact tableMove_domClose F code (hC (by assumption))
  · exact tableMove_command F code keepsTables_invAll
  · exact tableMove_command F code keepsTables_invDomain
  · exact tableMove_command F code keepsTables_invPage
  · exact tableMove_command F code keepsTables_probe
  · exact tableMove_command F code keepsTables_chStart
  · exact tableMove_command F code keepsTables_chHalt
  · exact tableMove_command F code keepsTables_chContinue
  · exact tableMove_command F code keepsTables_chSkip
  · exact tableMove_command F code keepsTables_chAbort
  · exact tableMove_command F code keepsTables_fqPop
  · exact tableMove_command F code keepsTables_urgentReq
  · exact tableMove_command F code keepsTables_resume
  · exact tableMove_command F code keepsTables_lockClear
  · exact tableMove_command F code fun _ _ _ p _ _ => p

theorem tableMove_writeField (F : Fits D s) (f : DomainField) (v : Word) : TableMove D C s (s.writeField f v) := by
  unfold State.writeField
  dsimp only
  split
  · exact .record _ _ s.window (by assumption)
  · exact .steady F.tables.unmoved

theorem tableMove_writeGrants (F : Fits D s) (v : Word) : TableMove D C s (s.writeGrants v) := by
  unfold State.writeGrants
  dsimp only
  split
  · exact .grant _ _ s.window (by assumption)
  · exact .steady F.tables.unmoved

theorem tableMove_bases (F : Fits D s) (v : Word) :
    TableMove D C s (s.writeSaveLow v) ∧ TableMove D C s (s.writeSaveHigh v)
    ∧ TableMove D C s (s.writeListLow v) ∧ TableMove D C s (s.writeListHigh v) := by
  unfold State.writeSaveLow State.writeSaveHigh State.writeListLow State.writeListHigh
  dsimp only
  refine ⟨?_, ?_, ?_, ?_⟩ <;> split <;> exact .steady F.tables.unmoved

theorem tableMove_writeReg (F : Fits D s) (reg : BitVec 6) (v : Word) (hC : 2 * reg.toNat = 4 → C) :
    TableMove D C s (s.writeReg reg v) := by
  unfold State.writeReg
  split
  case h_1 =>
    unfold State.writeCtrl
    split
    · exact .steady F.tables.beginEngineReset
    · exact .refl F
  case h_2 => exact tableMove_effect F _ fun _ => hC (by assumption)
  case h_12 | h_13 | h_14 | h_15 => exact tableMove_writeField F _ v
  case h_16 => exact tableMove_writeGrants F v
  case h_18 => exact (tableMove_bases F v).1
  case h_19 => exact (tableMove_bases F v).2.1
  case h_20 => exact (tableMove_bases F v).2.2.1
  case h_21 => exact (tableMove_bases F v).2.2.2
  all_goals exact .steady F.tables.unmoved

theorem tableMove_accessEnd (F : Fits D s) (r : Slot) (on : Bool) (act : State → Access → State)
    (hact : ∀ a, on = true → Tables D s { s with sbi := s.sbi.ended } →
      Tables D s (act { s with sbi := s.sbi.ended } a)) : TableMove D C s (s.accessEnd r on act) :=
  .steady (F.tables.accessEnd r on act fun a hon _ => hact a hon F.tables.unmoved)

theorem TableMove.unless {t : State} (F : Fits D s) (h : TableMove D C s t) : TableMove D C s (s.unlessReset t) := by
  unfold State.unlessReset
  split
  · exact .refl F
  · exact h

/-- A DOM_CLOSE, or a term that is no row. -/
def Instr.Closes (i : Instr) : Prop := i.wellFormed = true → ∃ hi, i = .domClose hi

/-- Every command but a hard reset makes a table move. -/
theorem exec_tableMove (F : Fits D s) (i : Instr) (t : State) (hi : i ≠ .hardReset) (e : exec i s = .next t) :
    TableMove D (Instr.Closes i) s t := by
  have hserved (b : Sbi) : Served D { s with sbi := b } := F.served.of_same rfl rfl rfl
  cases i <;> (injection e with e; subst e) <;> try refine TableMove.unless F ?_
  case domOpen => exact tableMove_domOpen F _
  case domClose => exact tableMove_domClose F _ fun _ => ⟨_, rfl⟩
  case invAll => exact tableMove_command F _ keepsTables_invAll
  case invDomain => exact tableMove_command F _ keepsTables_invDomain
  case invPage => exact tableMove_command F _ keepsTables_invPage
  case probe => exact tableMove_command F _ keepsTables_probe
  case chStart => exact tableMove_command F _ keepsTables_chStart
  case chHalt => exact tableMove_command F _ keepsTables_chHalt
  case chContinue => exact tableMove_command F _ keepsTables_chContinue
  case chSkip => exact tableMove_command F _ keepsTables_chSkip
  case chAbort => exact tableMove_command F _ keepsTables_chAbort
  case fqPop => exact tableMove_command F _ keepsTables_fqPop
  case urgentReq => exact tableMove_command F _ keepsTables_urgentReq
  case resume => exact tableMove_command F _ keepsTables_resume
  case lockClear => exact tableMove_command F _ keepsTables_lockClear
  case unknownCommandCode v =>
    refine tableMove_effect F _ fun h wf => ?_
    simp only [Instr.wellFormed, namesCommand, Bool.not_eq_true', Bool.and_eq_false_iff, decide_eq_false_iff_not] at wf
    change (v.extractLsb' 0 8).toNat = 2 at h
    omega
  case engineReset => exact .steady F.tables.beginEngineReset
  case engineResetComplete =>
    split
    · exact .steady F.tables.completeEngineReset
    · exact .refl F
  case domainFieldWrite f v => exact tableMove_writeField F f v
  case grantWordWrite v => exact tableMove_writeGrants F v
  case saveBaseLowWrite v => exact (tableMove_bases F v).1
  case saveBaseHighWrite v => exact (tableMove_bases F v).2.1
  case listBaseLowWrite v => exact (tableMove_bases F v).2.2.1
  case listBaseHighWrite v => exact (tableMove_bases F v).2.2.2
  case registerWrite r v =>
    refine tableMove_writeReg F r v fun h wf => ?_
    simp [Instr.wellFormed, hasOwnRow, h] at wf
  case hardReset => exact absurd rfl hi
  case rstRelease =>
    unfold State.releaseReset
    split
    · exact .steady F.tables.unmoved
    · exact .refl F
  case urqRequest =>
    unfold State.urqFalls
    dsimp only
    split
    · have p : Tables D s { s with
          pins := { s.pins with urqHigh := false }, urgent := { s.urgent with armed := false } } := F.tables.unmoved
      exact .steady (p.urgentRequest (F.served.of_same rfl rfl rfl) _)
    · exact .steady F.tables.unmoved
  case lineAsserted => exact .steady ((F.tables.sampleLines _).wakeLines _)
  case schedulerGrant => exact .steady (F.tables.sampleLines _).schedule
  case walkStart =>
    split
    · exact .steady (F.tables.takeRequest F.served).settleBus
    · exact .refl F
  case walkAccessEnd => exact tableMove_accessEnd F _ _ _ fun a _ p => p.walkAccessEnd (hserved _) F.walked a _
  case fetchReadEnd =>
    exact tableMove_accessEnd F _ _ _ fun a h p => p.fetchReadEnd (by simpa using h) (hserved _) a _
  case beatReadEnd =>
    exact tableMove_accessEnd F _ _ _ fun a h p => p.beatReadEnd (by simp at h; exact h.1) (hserved _) a _
  case beatWriteEnd _ preq =>
    exact tableMove_accessEnd F _ _ _ fun a h p =>
      (p.sampleLines preq).beatWriteEnd (by simp at h; exact h.1) (F.served.of_same rfl rfl rfl) _
  case statusWriteEnd =>
    exact tableMove_accessEnd F _ _ _ fun a h p => p.statusWriteEnd (by simpa using h) (hserved _) _
  case saveBegin =>
    split
    · exact .steady F.tables.unmoved
    · exact .refl F
  case saveWriteEnd => exact tableMove_accessEnd F _ _ _ fun a _ p => p.saveWriteEnd _
  case restoreReadEnd _ preq =>
    exact tableMove_accessEnd F _ _ _ fun a _ p =>
      (p.sampleLines preq).restoreReadEnd F.opened a _
  all_goals exact .steady F.tables.unmoved

end Commands

end Sys2Proof.Machine
end

section
/-! SUPPORT. Law 3 and law 1 of the cache, the freeze of an OPEN domain and the queue of commands under every table move, and
the proofs of `Obligations.MarksLawKept`, `Obligations.TagsLawKept`, `Obligations.OpenDomainsAreFrozen` and
`Obligations.EveryCommandCompletes`. -/

namespace Sys2Proof.Machine

/-! ### Every command completes -/

/-- Every command answers a next state. -/
theorem exec_next (i : Instr) (s : State) : ∃ t, exec i s = .next t := by
  cases i <;> exact ⟨_, rfl⟩

/-- A step idles on an empty queue, or is the front command with the rest of the queue. -/
theorem step_cases {s t : State} (e : step s = .next t) :
    (s.pending = [] ∧ t = s) ∨ ∃ i rest, s.pending = i :: rest ∧ exec i { s with pending := rest } = .next t := by
  unfold step at e
  split at e
  · cases e; exact .inl ⟨by assumption, rfl⟩
  · exact .inr ⟨_, _, by assumption, e⟩

/-- A hard reset leaves the part as its reset has it, with the waiting commands (R183). -/
theorem exec_hardReset (s : State) : exec .hardReset s = .next s.assertReset := rfl

theorem TableMove.pending {D : DomainId → Prop} {C : Prop} {s t : State} (m : TableMove D C s t) :
    t.pending = s.pending := by
  cases m with
  | steady p => exact p.pending
  | record | grant | close => rfl

/-- Settles O2: a hard reset leaves the queue, and so does every table move. -/
theorem everyCommandCompletes : Obligations.EveryCommandCompletes := by
  intro c s
  obtain ⟨t, ht⟩ := exec_next c s
  refine ⟨t, ht, ?_⟩
  by_cases hc : c = .hardReset
  · subst hc
    cases ht
    rfl
  · exact (exec_tableMove (fits_true s) c t hc ht).pending

/-! ### OPEN domains are frozen -/

/-- An OPEN domain's grant map stands, and of its record all but the state; the state stands too unless a DOM_CLOSE or an
ill-formed term closes it (R4, R7, R8). -/
theorem TableMove.frozen {D : DomainId → Prop} {C : Prop} {s t : State} (m : TableMove D C s t) {d : DomainId}
    (h : s.domains[d].state = .opened) :
    t.grants[d] = s.grants[d] ∧ (¬ C → t.domains[d] = s.domains[d])
    ∧ t.domains[d] = { s.domains[d] with state := t.domains[d].state } := by
  have other {k : DomainId} (hk : s.domains[k].state = .closed) : d ≠ k := by
    rintro rfl
    rw [h] at hk
    cases hk
  cases m with
  | steady p =>
    rw [p.grants, p.domains]
    exact ⟨rfl, fun _ => rfl, rfl⟩
  | record k r w hk =>
    dsimp only
    rw [set_getElem, if_neg (other hk)]
    exact ⟨rfl, fun _ => rfl, rfl⟩
  | grant k g w hk =>
    dsimp only
    rw [set_getElem, if_neg (other hk)]
    exact ⟨rfl, fun _ => rfl, rfl⟩
  | close k w hC _ _ =>
    refine ⟨rfl, fun hn => absurd hC hn, ?_⟩
    dsimp only
    rw [set_getElem]
    split
    · subst d; rfl
    · rfl

/-- Settles O18: no table move but the closing itself touches an OPEN domain, and of the rows only DOM_CLOSE closes. -/
theorem openDomainsAreFrozen : Obligations.OpenDomainsAreFrozen := by
  intro i s t d hwf hexec hi hopen
  obtain ⟨hgrants, hrecord, hstate⟩ := (exec_tableMove (fits_true s) i t hi hexec).frozen hopen
  refine ⟨hgrants, fun hclose => hrecord fun hcloses => ?_, hstate⟩
  obtain ⟨hi', rfl⟩ := hcloses hwf
  exact hclose hi' rfl

/-! ### The laws of the cache -/

/-- A property that the part's operations on its cache keep, and that an empty cache has, is kept by every step. -/
theorem CacheClosed.step {P : Vector CacheSet 16 → Prop} (hP : CacheClosed P) (hreset : P State.reset.cache)
    (s t : State) (p : P s.cache) (e : step s = .next t) : P t.cache := by
  have exec_keeps (i : Instr) (s t : State) (p : P s.cache) (e : exec i s = .next t) : P t.cache := by
    by_cases hi : i = .hardReset
    · subst hi
      cases e
      exact hreset
    · cases exec_tableMove (fits_true s) i t hi e with
      | steady m => exact m.cache P hP p
      | record | grant => exact p
      | close => exact hP.invalidate _ _ p
  rcases step_cases e with ⟨-, rfl⟩ | ⟨i, rest, -, e⟩
  · exact p
  · exact exec_keeps i { s with pending := rest } t p e

theorem reset_entry (i : Fin 16) (w : Fin 4) : State.reset.cache[i][w] = CacheEntry.reset := by
  simp [State.reset]

/-- Law 3, of a cache. -/
def MarksClear (v : Vector CacheSet 16) : Prop := ∀ i : Fin 16, ∃ w : Fin 4, v[i][w].referenced = false

theorem MarksClear.set {v : Vector CacheSet 16} (p : MarksClear v) (i : Fin 16) {x : CacheSet}
    (hx : ∃ w : Fin 4, x[w].referenced = false) : MarksClear (v.set i x) := fun k => by
  rw [set_getElem]
  split
  · exact hx
  · exact p k

theorem invalidateSet_unmarked {x : CacheSet} {w : Fin 4} (h : x[w].referenced = false) (m : CacheEntry → Bool) :
    (invalidateSet x m)[w].referenced = false := by
  rw [invalidateSet_getElem]
  split
  · rfl
  · exact h

theorem marksClear_closed : CacheClosed MarksClear where
  mark v i w p := p.set i (markReferenced_clear _ _)
  install v x p := p.set _ (installInto_clear _ _)
  invalidate v m p i := by
    obtain ⟨w, hw⟩ := p i
    rw [updateSets_getElem]
    exact ⟨w, invalidateSet_unmarked hw m⟩
  invalidateOne v i m p := p.set i <| by
    obtain ⟨w, hw⟩ := p i
    exact ⟨w, invalidateSet_unmarked hw m⟩

/-- Settles O22: a mark and an install clear the other marks of a full set, and an invalidation sets none. -/
theorem marksLawKept : Obligations.MarksLawKept := fun s t =>
  marksClear_closed.step (fun i => ⟨0, by rw [reset_entry]; rfl⟩) s t

/-- Law 1 with the placement, of the set of index `i`. -/
def SetTags (i : Fin 16) (x : CacheSet) : Prop :=
  (∀ w : Fin 4, x[w].valid = true → setOf x[w].vpn = i)
  ∧ ∀ w w' : Fin 4, x[w].valid = true → x[w'].valid = true → x[w].domain = x[w'].domain → x[w].vpn = x[w'].vpn → w = w'

/-- Entries that become invalid or keep their tags keep the law of their set. -/
theorem SetTags.weaken {i : Fin 16} {x y : CacheSet} (p : SetTags i x)
    (h : ∀ w : Fin 4, y[w].valid = true → x[w].valid = true ∧ y[w].domain = x[w].domain ∧ y[w].vpn = x[w].vpn) :
    SetTags i y := by
  refine ⟨fun w hw => ?_, fun w w' hw hw' hd hv => ?_⟩
  · obtain ⟨hvalid, -, hvpn⟩ := h w hw
    rw [hvpn]
    exact p.1 w hvalid
  · obtain ⟨hvalid, hdom, hvpn⟩ := h w hw
    obtain ⟨hvalid', hdom', hvpn'⟩ := h w' hw'
    rw [hdom, hdom'] at hd
    rw [hvpn, hvpn'] at hv
    exact p.2 w w' hvalid hvalid' hd hv

theorem SetTags.mark {i : Fin 16} {x : CacheSet} (p : SetTags i x) (w : Fin 4) : SetTags i (markReferenced x w) :=
  p.weaken fun k hk => by
    rw [markReferenced_fields] at hk ⊢
    exact ⟨hk, rfl, rfl⟩

theorem SetTags.invalidate {i : Fin 16} {x : CacheSet} (p : SetTags i x) (m : CacheEntry → Bool) :
    SetTags i (invalidateSet x m) := p.weaken fun k hk => by
  rw [invalidateSet_getElem] at hk ⊢
  split at hk
  · cases hk
  · rw [if_neg (by assumption)]
    exact ⟨hk, rfl, rfl⟩

/-- An install takes the way that already holds the page, where one does, so its tags stay unique (R43). -/
theorem installWay_unique {x : CacheSet} {d : DomainId} {p : Vpn} {w : Fin 4} (hvalid : x[w].valid = true)
    (hd : x[w].domain = d) (hp : x[w].vpn = p) (h : SetTags (setOf p) x) : w = installWay x d p := by
  have hhits : x[w].hits d p = true := by
    simp only [CacheEntry.hits, Bool.and_eq_true, beq_iff_eq]
    exact ⟨⟨hvalid, hd⟩, hp⟩
  rcases installWay_spec (t := x) (d := d) (p := p) rfl with hk | ⟨hnone, -⟩ | ⟨hnone, -⟩
  · have hw := hitWay_some hk
    simp only [CacheEntry.hits, Bool.and_eq_true, beq_iff_eq] at hw
    obtain ⟨⟨hv, hdom⟩, hvpn⟩ := hw
    exact h.2 _ _ hvalid hv (hd.trans hdom.symm) (hp.trans hvpn.symm)
  · rw [hitWay_none hnone w] at hhits; cases hhits
  · rw [hitWay_none hnone w] at hhits; cases hhits

theorem SetTags.install {x : CacheSet} {t : Translation} (p : SetTags (setOf t.vpn) x) :
    SetTags (setOf t.vpn) (installInto x t) := by
  have key (w : Fin 4) (hw : (installInto x t)[w].valid = true) :
      (w = installWay x t.domain t.vpn ∧ (installInto x t)[w].domain = t.domain ∧ (installInto x t)[w].vpn = t.vpn)
      ∨ (w ≠ installWay x t.domain t.vpn ∧ x[w].valid = true
        ∧ (installInto x t)[w].domain = x[w].domain ∧ (installInto x t)[w].vpn = x[w].vpn) := by
    rw [installInto_getElem] at hw ⊢
    by_cases h : w = installWay x t.domain t.vpn
    · rw [if_pos h]
      exact .inl ⟨h, rfl, rfl⟩
    · rw [if_neg h] at hw ⊢
      exact .inr ⟨h, hw, rfl, rfl⟩
  refine ⟨fun w hw => ?_, fun w w' hw hw' hd hv => ?_⟩
  · rcases key w hw with ⟨-, -, hvpn⟩ | ⟨-, hvalid, -, hvpn⟩
    · rw [hvpn]
    · rw [hvpn]; exact p.1 w hvalid
  · rcases key w hw with ⟨h, hdom, hvpn⟩ | ⟨h, hvalid, hdom, hvpn⟩ <;>
      rcases key w' hw' with ⟨h', hdom', hvpn'⟩ | ⟨h', hvalid', hdom', hvpn'⟩ <;>
      rw [hdom, hdom'] at hd <;> rw [hvpn, hvpn'] at hv
    · rw [h, h']
    · exact absurd (installWay_unique hvalid' hd.symm hv.symm p) h'
    · exact absurd (installWay_unique hvalid hd hv p) h
    · exact p.2 w w' hvalid hvalid' hd hv

/-- Law 1, of a cache. -/
def TagsUnique (v : Vector CacheSet 16) : Prop := ∀ i : Fin 16, SetTags i v[i]

theorem TagsUnique.set {v : Vector CacheSet 16} (p : TagsUnique v) (i : Fin 16) {x : CacheSet} (hx : SetTags i x) :
    TagsUnique (v.set i x) := fun k => by
  rw [set_getElem]
  split
  · subst k; exact hx
  · exact p k

theorem tagsUnique_closed : CacheClosed TagsUnique where
  mark v i w p := p.set i ((p i).mark w)
  install v x p := p.set _ (p _).install
  invalidate v m p i := by
    rw [updateSets_getElem]
    exact (p i).invalidate m
  invalidateOne v i m p := p.set i ((p i).invalidate m)

theorem tagsLaw_iff (s : State) : TagsLaw s ↔ TagsUnique s.cache :=
  ⟨fun h i => ⟨h.1 i, h.2 i⟩, fun h => ⟨fun i => (h i).1, fun i => (h i).2⟩⟩

/-- Settles O23: an install keeps the tags of its set unique, and the other operations add none. -/
theorem tagsLawKept : Obligations.TagsLawKept := by
  intro s t
  rw [tagsLaw_iff, tagsLaw_iff]
  refine tagsUnique_closed.step (fun i => ⟨fun w hw => ?_, fun w w' hw => ?_⟩) s t <;>
  · rw [reset_entry] at hw; cases hw

end Sys2Proof.Machine
end

section
/-! SUPPORT. The engine part of laws 2 and 8 under every command: what is outstanding of the Engine and of the walker (R33, R34,
R109, R111, R112, R169). -/

namespace Sys2Proof.Machine

/-! ### The Engine is answered -/

/-- No access of the walker is in flight or pending. -/
def WalkerFree (s : State) : Prop := (∀ a, s.sbi.inFlight ≠ some (.walker, a)) ∧ s.sbi.walker = none

theorem portsGranted_congr {s u : State} (h : u.grants = s.grants) (d : DomainId) (w : Width) (p : Port) :
    u.PortsGranted d w p ↔ s.PortsGranted d w p := by
  unfold State.PortsGranted State.portGranted
  rw [h]

/-- What leaves the SBI and the walker of a quiet part keeps the engine part of the laws. -/
theorem Quiet.okSame {s t : State} (q : Quiet s) (h1 : t.sbi = s.sbi := by rfl) (h2 : t.walker = s.walker := by rfl) :
    EngOk t := (q.same h1 h2).ok

/-- A request of the Engine that waits is its only outstanding thing: without it the Engine is quiet (R34). -/
theorem EngOk.quiet_unasked {s : State} (k : EngOk s) {r : WalkRequest} (h : s.walker.engineWaiting = some r) :
    s.engineWalk = some r ∧ Quiet (s.modWalker fun w => { w with engineWaiting := none }) := by
  obtain ⟨-, ⟨-, -, hwalker, hbusy, hasked, hwalk⟩, -⟩ := k
  have hidle : ¬ (s.walker.state ≠ .idle ∧ s.walker.requester = .engine) := fun ⟨h1, h2⟩ => by
    rw [hasked h1 h2] at h; cases h
  have hr : s.engineWalk = some r := by
    unfold State.engineWalk
    rw [if_neg hidle, h]
  refine ⟨hr, (hwalk r hr).1, ?_, hwalker, hbusy⟩
  unfold State.engineWalk
  exact if_neg hidle

/-- The Engine's walk in progress is its only outstanding thing: when the walk ends the Engine is quiet (R33). -/
theorem EngOk.quiet_endWalk {s : State} (k : EngOk s) (hst : s.walker.state ≠ .idle)
    (hr : s.walker.requester = .engine) (hfree : WalkerFree s) :
    s.engineWalk = some s.walker.request ∧ Quiet s.endWalk := by
  obtain ⟨-, ⟨-, -, hwalker, -, hasked, hwalk⟩, -⟩ := k
  have hreq : s.engineWalk = some s.walker.request := by
    unfold State.engineWalk
    rw [if_pos ⟨hst, hr⟩]
  refine ⟨hreq, (hwalk _ hreq).1, ?_, hwalker, ?_⟩
  · unfold State.engineWalk
    rw [if_neg fun h => h.1 rfl]
    exact hasked hst hr
  · rintro (⟨a, h⟩ | h)
    · exact absurd h (hfree.1 a)
    · exact absurd hfree.2 h

/-- The Engine goes on with the answer to what it has asked for: what its beat has passed still stands (R109). -/
theorem EngOk.answer {s u : State} (k : EngOk s) {r : WalkRequest} (hw : s.engineWalk = some r)
    (he : u.engine = s.engine) (hc : u.channels = s.channels) (hg : u.grants = s.grants) (q : Quiet u) (a : Answer) :
    EngOk (u.engineAnswer a) := by
  obtain ⟨-, ⟨-, -, -, -, -, hwalk⟩, hpromise⟩ := k
  obtain ⟨-, -, c, hs, -⟩ := hwalk r hw
  have hne : s.engineWalk ≠ none := by rw [hw]; nofun
  refine q.engineAnswer (c := c) (by rw [he]; exact hs) (fun hv hk => ?_) (fun hv hk => ?_) a
  · rw [portsGranted_congr hg, hc]
    rw [hc] at hk
    exact (hpromise c (he ▸ hv) hs).1 hk hne
  · rw [hc] at hk
    rw [he]
    exact (hpromise c (he ▸ hv) hs).2.1 hk hne

/-- A probe's walk ends (R35). -/
theorem EngOk.endProbeWalk {s : State} (k : EngOk s) (hr : s.walker.requester = .probe) (hfree : WalkerFree s) :
    EngOk s.endWalk := by
  obtain ⟨-, ⟨-, hengine, hwalker, -, -, -⟩, -⟩ := id k
  refine Same.ok (s := s) ⟨rfl, rfl, hengine, hwalker, ?_, ?_, fun h => absurd rfl h, fun _ _ _ =>
    ⟨rfl, rfl, rfl, rfl, fun _ => rfl⟩⟩ k
  · rintro (⟨a, h⟩ | h)
    · exact absurd h (hfree.1 a)
    · exact absurd hfree.2 h
  · unfold State.engineWalk
    rw [if_neg (c := s.walker.state ≠ .idle ∧ _) (by rw [hr]; nofun)]
    exact if_neg fun h => h.1 rfl

/-- The walker hands over its next access, in a walk that stands (R32). -/
theorem EngOk.walkerAccess {s : State} (k : EngOk s) (hfree : WalkerFree s) (w : Walker) (a : Access)
    (hbusy : w.state ≠ .idle) (hwalk : ({ s with walker := w } : State).engineWalk = s.engineWalk)
    (hasked : w.requester = .engine → w.engineWaiting = none) :
    EngOk ({ s with walker := w }.handOver .walker a) := by
  obtain ⟨-, ⟨-, hengine, -⟩, -⟩ := id k
  have hsbi : (s.sbi.handOver .walker a).inFlight = s.sbi.inFlight
      ∧ (s.sbi.handOver .walker a).engine = s.sbi.engine := by
    unfold Sbi.handOver Sbi.setSlot
    dsimp only
    split <;> exact ⟨rfl, rfl⟩
  refine Same.ok (s := s) ⟨rfl, ?_, ?_, ?_, fun _ => hbusy, hwalk, fun _ => hasked, fun _ _ _ =>
    ⟨rfl, rfl, rfl, rfl, fun _ => rfl⟩⟩ k
  · unfold State.engineAccess
    rw [State.handOver_sbi, hsbi.1, hsbi.2]
  · intro b hb
    rw [State.handOver_sbi, hsbi.1] at hb
    rw [State.handOver_sbi, hsbi.2]
    exact hengine b hb
  · intro b hb
    rw [State.handOver_sbi, hsbi.1] at hb
    exact absurd hb (hfree.1 b)

/-- The urgent slot is none of the Engine's or the walker's. -/
theorem EngOk.handOverUrgent {s : State} (k : EngOk s) (a : Access) : EngOk (s.handOver .urgent a) := by
  have h : s.handOver .urgent a = { s with sbi := s.sbi.handOver .urgent a } := rfl
  have hsbi : (s.sbi.handOver .urgent a).inFlight = s.sbi.inFlight
      ∧ (s.sbi.handOver .urgent a).engine = s.sbi.engine ∧ (s.sbi.handOver .urgent a).walker = s.sbi.walker := by
    unfold Sbi.handOver Sbi.setSlot
    dsimp only
    split <;> exact ⟨rfl, rfl, rfl⟩
  obtain ⟨hflight, heng, hwalk⟩ := hsbi
  rw [h]
  refine k.sbi _ ?_ ?_ ?_ ?_
  · unfold State.engineAccess
    rw [hflight, heng]
  · rw [hflight, heng]; exact k.2.1.2.1
  · rw [hflight, hwalk]; exact k.2.1.2.2.1
  · rw [hflight, hwalk]; exact id

/-! ### The walker -/

theorem EngOk.deliverFault {s : State} (k : EngOk s) (hst : s.walker.state ≠ .idle) (hfree : WalkerFree s)
    (f : FaultKind) : EngOk (s.deliverFault f) := by
  unfold State.deliverFault
  split
  · rename_i hr
    obtain ⟨hw, q⟩ := k.quiet_endWalk hst hr hfree
    exact k.answer (u := s.endWalk) hw rfl rfl rfl q _
  · rename_i hr
    exact (k.endProbeWalk hr hfree).same

theorem EngOk.deliverDeclined {s : State} (k : EngOk s) (hst : s.walker.state ≠ .idle) (hfree : WalkerFree s) :
    EngOk s.deliverDeclined := by
  unfold State.deliverDeclined
  split
  · rename_i hr
    obtain ⟨hw, q⟩ := k.quiet_endWalk hst hr hfree
    exact k.answer (u := s.endWalk) hw rfl rfl rfl q _
  · rename_i hr
    exact (k.endProbeWalk hr hfree).same

theorem EngOk.deliver {s : State} (k : EngOk s) (hst : s.walker.state ≠ .idle) (hfree : WalkerFree s)
    (written : Bool) : EngOk (s.deliver written) := by
  unfold State.deliver
  dsimp only
  split
  · rename_i hr
    obtain ⟨hw, q⟩ := k.quiet_endWalk hst hr hfree
    exact k.answer (u := s.endWalk.install _) hw rfl rfl rfl (Quiet.same (s := s.endWalk) q rfl rfl) _
  · rename_i hr
    exact (k.endProbeWalk hr hfree).same

/-- What identifies the walks of the Engine, of a walker's record. -/
structure Walker.SameWalk (v w : Walker) : Prop where
  state : w.state ≠ .idle
  requester : w.requester = v.requester
  request : w.request = v.request
  waiting : w.engineWaiting = v.engineWaiting

/-- A walk that goes on with other contents. -/
theorem EngOk.rewalk {s : State} (k : EngOk s) (hst : s.walker.state ≠ .idle) {w : Walker}
    (h : s.walker.SameWalk w) :
    ({ s with walker := w } : State).engineWalk = s.engineWalk
    ∧ (w.requester = .engine → w.engineWaiting = none) := by
  obtain ⟨-, ⟨-, -, -, -, hasked, -⟩, -⟩ := k
  refine ⟨?_, fun hr => ?_⟩
  · unfold State.engineWalk
    simp only [h.requester, h.request, h.waiting, h.state, hst, ne_eq, not_false_eq_true, true_and]
  · rw [h.waiting]
    exact hasked hst (h.requester ▸ hr)

theorem EngOk.modWalker {s : State} (k : EngOk s) (hst : s.walker.state ≠ .idle) {f : Walker → Walker}
    (h : s.walker.SameWalk (f s.walker)) : EngOk (s.modWalker f) := by
  obtain ⟨hwalk, hasked⟩ := k.rewalk hst h
  obtain ⟨-, ⟨-, hengine, hwalker, -⟩, -⟩ := id k
  exact Same.ok (s := s) ⟨rfl, rfl, hengine, hwalker, fun _ => h.state, hwalk, fun _ => hasked, fun _ _ _ =>
    ⟨rfl, rfl, rfl, rfl, fun _ => rfl⟩⟩ k

theorem EngOk.walkOn {s : State} (k : EngOk s) (hst : s.walker.state ≠ .idle) (hfree : WalkerFree s)
    {f : Walker → Walker} (h : s.walker.SameWalk (f s.walker)) (a : Access) :
    EngOk ((s.modWalker f).handOver .walker a) := by
  obtain ⟨hwalk, hasked⟩ := k.rewalk hst h
  exact k.walkerAccess hfree _ a h.state hwalk hasked

/-- The walker's record as a walk starts: the request, the tracking of the Engine's walks, and the domain record as it stands;
what an earlier attempt gathered is dropped (R20, R32, R52). -/
def startedWalk (w : Walker) (d : DomainRecord) (q : Requester) (r : WalkRequest) : Walker :=
  { w with
    state := .dirRead, requester := q, request := r, tracking := (q == .engine), dirBase := d.dirBase
    pageLimit := d.pageLimit, readOnly := d.readOnly, trackUsed := d.trackUsed, trackWritten := d.trackWritten
    second := false, dirPresent := false, tableBase := 0, pageLow := 0, frame := 0, stale := false }

/-- The page limit is checked before the first access (R20, R21). -/
theorem startWalk_eq (s : State) (q : Requester) (r : WalkRequest) :
    s.startWalk q r =
      let t : State := { s with walker := startedWalk s.walker s.domains[r.domain] q r }
      if s.domains[r.domain].pageLimit < vpnOf r.vaddr then t.deliverFault .overLimit
      else t.handOver .walker (readWord (dirEntryAddr s.domains[r.domain].dirBase r.vaddr)) := rfl

/-- A walk starts with the request that the Engine has outstanding, or with a probe's (R20, R32, R34). -/
theorem EngOk.startWalk {s : State} (k : EngOk s) (hfree : WalkerFree s) (w : Walker) {q : Requester} {r : WalkRequest}
    (hw : s.engineWalk = if q = .engine then some r else w.engineWaiting)
    (hasked : q = .engine → w.engineWaiting = none) : EngOk (({ s with walker := w } : State).startWalk q r) := by
  have started : ({ s with walker := startedWalk w s.domains[r.domain] q r } : State).engineWalk = s.engineWalk := by
    rw [hw]
    simp [State.engineWalk, startedWalk]
  rw [startWalk_eq]
  dsimp only
  split
  · refine EngOk.deliverFault (s := { s with walker := startedWalk w s.domains[r.domain] q r }) ?_ nofun hfree _
    obtain ⟨-, ⟨-, hengine, hwalker, -⟩, -⟩ := id k
    exact Same.ok (s := s) ⟨rfl, rfl, hengine, hwalker, fun _ => nofun, started,
      fun _ => hasked, fun _ _ _ => ⟨rfl, rfl, rfl, rfl, fun _ => rfl⟩⟩ k
  · exact k.walkerAccess hfree (startedWalk w s.domains[r.domain] q r) _ nofun started hasked

theorem EngOk.dirWord {s : State} (k : EngOk s) (hst : s.walker.state ≠ .idle) (hfree : WalkerFree s) (x : Word) :
    EngOk (s.dirWord x) := by
  unfold State.dirWord
  dsimp only
  split
  · have k' := k.modWalker hst (f := fun w => { w with tableBase := lowByte x ++ lowByte w.tableBase })
      ⟨hst, rfl, rfl, rfl⟩
    split
    · exact k'.walkOn hst hfree (f := fun w => { w with state := .pageRead, second := false })
        ⟨nofun, rfl, rfl, rfl⟩ _
    · exact k'.deliverFault hst hfree _
  · exact k.walkOn hst hfree (f := fun w =>
      { w with second := true, dirPresent := x.getLsbD 0, tableBase := 0#8 ++ highByte x }) ⟨hst, rfl, rfl, rfl⟩ _

theorem EngOk.walkChecks {s : State} (k : EngOk s) (hst : s.walker.state ≠ .idle) (hfree : WalkerFree s) :
    EngOk s.walkChecks := by
  unfold State.walkChecks
  dsimp only
  split
  · exact k.deliverFault hst hfree _
  · split
    · exact k.walkOn hst hfree (f := fun w => { w with state := .pageUpdate }) ⟨nofun, rfl, rfl, rfl⟩ _
    · exact k.deliver hst hfree _

theorem EngOk.pageWord {s : State} (k : EngOk s) (hst : s.walker.state ≠ .idle) (hfree : WalkerFree s) (x : Word) :
    EngOk (s.pageWord x) := by
  unfold State.pageWord
  dsimp only
  split
  · have k' := k.modWalker hst (f := fun w => { w with frame := lowByte x ++ w.pageLow.extractLsb' 11 5 })
      ⟨hst, rfl, rfl, rfl⟩
    split
    · exact k'.walkChecks hst hfree
    · exact k'.deliverFault hst hfree _
  · exact k.walkOn hst hfree (f := fun w => { w with second := true, pageLow := x }) ⟨hst, rfl, rfl, rfl⟩ _

theorem EngOk.walkAccessEnd {s : State} (k : EngOk s) (hst : s.walker.state ≠ .idle) (hfree : WalkerFree s)
    (a : Access) (e : BusEnd) : EngOk (s.walkAccessEnd a e) := by
  unfold State.walkAccessEnd
  split
  · split
    · refine k.startWalk hfree s.walker ?_ (k.2.1.2.2.2.2.1 hst)
      unfold State.engineWalk
      simp only [hst, ne_eq, not_false_eq_true, true_and]
    · exact k.deliverDeclined hst hfree
  · split
    · exact k.deliverFault hst hfree _
    · exact k.dirWord hst hfree _
    · exact k.pageWord hst hfree _
    · exact k.deliver hst hfree _
    · exact k

/-- The IDLE walker has no access (R32). -/
theorem EngOk.walkerFree {s : State} (k : EngOk s) (h : s.walker.state = .idle) : WalkerFree s := by
  have hbusy := k.2.1.2.2.2.1
  refine ⟨fun a ha => hbusy (.inl ⟨a, ha⟩) h, ?_⟩
  by_contra hne
  exact hbusy (.inr hne) h

theorem EngOk.takeRequest {s : State} (k : EngOk s) (h : s.walker.state = .idle) : EngOk s.takeRequest := by
  have hfree := k.walkerFree h
  have hidle : ¬ (s.walker.state ≠ .idle ∧ s.walker.requester = .engine) := fun hn => hn.1 h
  unfold State.takeRequest
  split
  · rename_i r hr
    refine k.startWalk hfree { s.walker with engineWaiting := none } ?_ fun _ => rfl
    unfold State.engineWalk
    rw [if_neg hidle, hr]
    rfl
  · refine k.startWalk hfree { s.walker with probeWaiting := none } ?_ nofun
    unfold State.engineWalk
    exact if_neg hidle
  · exact k

/-! ### The Engine's own accesses -/

/-- The end of the Engine's access leaves the Engine quiet (R112, R169). -/
theorem EngOk.quiet_ended {s : State} (k : EngOk s) {a : Access} (h : s.sbi.inFlight = some (.engine, a)) :
    Quiet { s with sbi := s.sbi.ended } := by
  obtain ⟨-, ⟨-, hengine, -, hbusy, -, hwalk⟩, -⟩ := k
  have haccess : s.engineAccess = some a := by
    unfold State.engineAccess
    rw [h]
  refine ⟨hengine a h, ?_, nofun, ?_⟩
  · cases hw : s.engineWalk with
    | none => exact hw
    | some r => rw [(hwalk r hw).1] at haccess; cases haccess
  · rintro (⟨b, hb⟩ | hb)
    · cases hb
    · exact hbusy (.inr hb)

/-- The end of the walker's access, in a walk. -/
theorem EngOk.walkerEnded {s : State} (k : EngOk s) {a : Access} (h : s.sbi.inFlight = some (.walker, a)) :
    EngOk { s with sbi := s.sbi.ended } ∧ s.walker.state ≠ .idle ∧ WalkerFree { s with sbi := s.sbi.ended } := by
  obtain ⟨-, ⟨-, -, hwalker, hbusy, -, -⟩, -⟩ := id k
  refine ⟨k.sbi _ ?_ nofun nofun ?_, hbusy (.inl ⟨a, h⟩), nofun, hwalker a h⟩
  · unfold State.engineAccess
    rw [h]
    rfl
  · rintro (⟨b, hb⟩ | hb)
    · cases hb
    · exact .inr hb

/-- The end of an access of the Urgent Controller. -/
theorem EngOk.urgentEnded {s : State} (k : EngOk s) {a : Access} (h : s.sbi.inFlight = some (.urgent, a)) :
    EngOk { s with sbi := s.sbi.ended } := by
  refine k.sbi _ ?_ nofun nofun ?_
  · unfold State.engineAccess
    rw [h]
    rfl
  · rintro (⟨b, hb⟩ | hb)
    · cases hb
    · exact .inr hb

theorem Quiet.startRun {s : State} (q : Quiet s) : EngOk s.startRun := by
  unfold State.startRun
  refine Quiet.fetchBegin ?_ .urgent
  exact q.same rfl rfl

theorem Quiet.beginRestore {s : State} (q : Quiet s) : EngOk s.beginRestore := by
  rw [beginRestore_eq]
  have k : EngOk { s with
      engine := Engine.free
      urgent := { s.urgent with mode := .urgentRestore, image := [], readProgress := 0 } } := by
    refine Quiet.ok ?_
    exact q.same rfl rfl
  exact k.handOverUrgent _

theorem Quiet.rerunOrRestore {s : State} (q : Quiet s) : EngOk s.rerunOrRestore := by
  unfold State.rerunOrRestore
  split
  · exact Quiet.startRun (s := { s with urgent := { s.urgent with latch := none } }) (q.same rfl rfl)
  · exact q.beginRestore

theorem Quiet.fetchDone {s : State} (q : Quiet s) : EngOk s.fetchDone := by
  unfold State.fetchDone
  dsimp only
  split
  · split
    · exact Quiet.endService (s := s.modChannel _ _) (q.same rfl rfl) _ _
    · exact Quiet.serviceBegin (s := s.modU _) (q.same rfl rfl) .urgent .move
  · exact q.fail _ _ _

theorem Quiet.fetchReadEnd {s : State} (q : Quiet s) (h : s.engine.service = .fetch) (a : Access) (e : BusEnd) :
    EngOk (s.fetchReadEnd a e) := by
  cases e with
  | busError => exact q.fail _ _ _
  | ready sd =>
    have q' : Quiet (s.modEngine fun x => { x with fetched := x.fetched ++ [a.taken sd] }) := q.same rfl rfl
    unfold State.fetchReadEnd
    dsimp only
    split
    · exact q'.fetchDone
    · exact q'.fetchNext h

/-- A write of U's beat hands over an access of no channel (R118). -/
theorem Quiet.issueWriteUrgent {s : State} (q : Quiet s) (hs : s.engine.server = .urgent)
    (h : s.engine.service = .move) : EngOk s.issueWrite :=
  q.handOver (t := s.issueWrite) rfl rfl (ne_of_eq_of_ne h (by decide))
    (fun c hc => by rw [show s.issueWrite.engine.server = s.engine.server from rfl, hs] at hc; cases hc)
    (fun _ _ _ _ hst => by cases hst)

/-- A beat's read ends: an EMIT's write goes to the port it has been granted (R109, R112). -/
theorem EngOk.beatReadEnd {s : State} (k : EngOk s) {a : Access} (hin : s.sbi.inFlight = some (.engine, a))
    (hv : s.engine.service = .move) (hst : s.engine.stage = .read) (e : BusEnd) :
    EngOk (({ s with sbi := s.sbi.ended } : State).beatReadEnd a e) := by
  have q := k.quiet_ended hin
  cases e with
  | busError => exact q.fail _ _ _
  | ready sd =>
    let u : State := { s with sbi := s.sbi.ended, engine := { s.engine with datum := some (a.taken sd) } }
    have q' : Quiet u := q.same rfl rfl
    change EngOk u.issueWrite
    cases hs : s.engine.server with
    | urgent => exact q'.issueWriteUrgent hs hv
    | channel c =>
      refine q'.issueWrite (c := c) hs hv fun hk => ?_
      have haccess : s.engineAccess ≠ none := by
        unfold State.engineAccess
        rw [hin]
        nofun
      exact (k.2.2 c hv hs).2.2 hk hst haccess

theorem putElement_parts (s : State) (e : Element) :
    (s.putElement e).sbi = s.sbi ∧ (s.putElement e).walker = s.walker := by
  unfold State.putElement
  split <;> exact ⟨rfl, rfl⟩

theorem Quiet.beatWriteEnd {s : State} (q : Quiet s) (h : s.engine.service = .move) (e : BusEnd) :
    EngOk (s.beatWriteEnd e) := by
  cases e with
  | busError => exact q.fail _ _ _
  | ready sd =>
    obtain ⟨hsbi, hwalker⟩ := putElement_parts s s.element.advance
    have q' : Quiet (s.putElement s.element.advance) := q.same hsbi hwalker
    have h' : (s.putElement s.element.advance).engine.service = .move := by rw [putElement_engine]; exact h
    unfold State.beatWriteEnd
    dsimp only
    generalize s.putElement s.element.advance = v at q' h'
    refine Quiet.nextBeat ?_ h'
    exact q'.same rfl rfl

theorem Quiet.statusWriteEnd {s : State} (q : Quiet s) (e : BusEnd) : EngOk (s.statusWriteEnd e) := by
  cases e with
  | busError => exact q.fail _ _ _
  | ready sd =>
    unfold State.statusWriteEnd
    dsimp only
    split
    · rw [markDone_window]
      refine Quiet.endService ?_ _ _
      exact q.same rfl rfl
    · split
      · unfold State.urgentChainEnd
        split
        · exact q.okSame
        · exact q.rerunOrRestore
      · split
        · exact q.okSame
        · exact Quiet.fetchBegin (s := s.modU _) (q.same rfl rfl) .urgent

end Sys2Proof.Machine
end

section
/-! SUPPORT. Laws 2 and 8 under every command, and the proof of `Obligations.ConfinementLawKept` (R4, R12, R13, R33, R109,
R111). -/

namespace Sys2Proof.Machine

/-- What the engine part of the laws leans on: the service law, the bindings, and the engine part itself. -/
structure Bounded (s : State) : Prop where
  service : ServiceLaw s
  bound : BoundLaw s
  engine : EngOk s

theorem Bounded.window {s : State} (p : Bounded s) (w : Window) : Bounded { s with window := w } :=
  ⟨p.service, p.bound, p.engine.same⟩

theorem Bounded.sampleLines {s : State} (p : Bounded s) (preq : BitVec 8) : Bounded (s.sampleLines preq) :=
  ⟨p.service, p.bound, p.engine.same⟩

theorem stateOf_congr {s : State} {d k : DomainId} {st : DomainState} (h : d = k) (hd : s.domains[d].state = st) :
    s.domains[k].state = st := h ▸ hd

/-- With the Engine free nothing of it is outstanding. -/
theorem Bounded.quiet {s : State} (p : Bounded s) (h : s.engine.service = .none) : Quiet s := p.engine.quiet h

/-- The channel served is live, so its domain is OPEN (R12). -/
theorem Bounded.servedOpen {s : State} (p : Bounded s) {c : ChannelId} (hv : s.engine.service ≠ .none)
    (hw : s.engine.server = .channel c) : s.domains[s.channels[c].domain].state = .opened := by
  have hactive := p.service.active hv hw
  exact p.bound c (by rw [hactive]; decide) (by rw [hactive]; decide)

/-- The channels are written, but not what the beat of the channel served works from. -/
theorem Bounded.channels {s t : State} (p : Bounded s)
    (hc : ∀ c : ChannelId, s.channels[c].state = .active →
      t.channels[c].domain = s.channels[c].domain ∧ t.channels[c].control = s.channels[c].control
      ∧ t.channels[c].source = s.channels[c].source ∧ t.channels[c].dest = s.channels[c].dest)
    (he : t.engine = s.engine := by rfl) (hb : t.sbi = s.sbi := by rfl) (hw : t.walker = s.walker := by rfl)
    (hg : t.grants = s.grants := by rfl) : EngOk t :=
  Same.of p.engine he hb (by rw [hw]) (by rw [hw]) (by rw [hw]) (by rw [hw])
    (fun c hs hv => hc c (p.service.active hv hs))
    (fun c _ _ q => by unfold State.portGranted; rw [hg])

/-- A channel that is not ACTIVE is written. -/
theorem Bounded.setChannel {s : State} (p : Bounded s) (c : ChannelId) (x : Channel)
    (h : s.channels[c].state ≠ .active) : EngOk (s.setChannel c x) := p.channels fun k hk => by
  rw [State.setChannel_channels, set_getElem, if_neg (by rintro rfl; exact h hk)]
  exact ⟨rfl, rfl, rfl, rfl⟩

/-! ### The effects of the commands -/

def KeepsEngine (f : Effect) : Prop := ∀ (t : State) (a : Args), Bounded t → EngOk (f a t).1

theorem keepsEngine_onChannel {f : ChannelId → Channel → Effect}
    (hf : ∀ (t : State) (a : Args) (c : ChannelId), Bounded t → EngOk (f c t.channels[c] a t).1) :
    KeepsEngine (onChannel f) := by
  intro t a p
  unfold onChannel
  split
  · exact p.engine
  · split
    · exact p.engine
    · exact hf t a _ p

theorem keepsEngine_domOpen : KeepsEngine domOpen := by
  intro t a p
  unfold domOpen
  dsimp only
  repeat' split
  all_goals exact p.engine.same

theorem keepsEngine_domClose : KeepsEngine domClose := by
  intro t a p
  unfold domClose
  simp only [invalidateDomain_eq]
  repeat' split
  all_goals exact p.engine.same

theorem keepsEngine_invAll : KeepsEngine invAll := by
  intro t a p
  unfold invAll
  simp only [invalidateAll_eq]
  exact p.engine.same

theorem keepsEngine_invDomain : KeepsEngine invDomain := by
  intro t a p
  unfold invDomain
  simp only [invalidateDomain_eq]
  split <;> exact p.engine.same

theorem keepsEngine_invPage : KeepsEngine invPage := by
  intro t a p
  unfold invPage State.invalidatePage
  simp only [markStale_eq]
  split
  · exact p.engine
  · split <;> exact p.engine.same

theorem keepsEngine_probe : KeepsEngine probe := by
  intro t a p
  unfold probe State.probeLookup
  dsimp only
  repeat' split
  all_goals exact p.engine.same

theorem ne_active_of {x : Channel} {st : ChannelState} (h : x.state = st) (hst : st ≠ .active) : x.state ≠ .active :=
  h ▸ hst

theorem keepsEngine_chStart : KeepsEngine chStart := keepsEngine_onChannel fun t a c p => by
  split
  · exact p.engine
  · rename_i hst
    have hc : t.channels[c].state ≠ .active := by
      rintro h
      rw [h] at hst
      exact hst ⟨nofun, nofun⟩
    split
    · exact p.engine
    · split
      · split
        · exact p.engine
        · exact (p.setChannel c _ hc).same
      · exact p.engine

/-- A pending flag of the ACTIVE channel changes nothing of its beat (R89, R93). -/
theorem Bounded.pend {t : State} (p : Bounded t) (c : ChannelId) (h a : Bool) :
    EngOk (t.setChannel c { t.channels[c] with pendingHalt := h, pendingAbort := a }) := p.channels fun k _ => by
  rw [State.setChannel_channels, set_getElem]
  split
  · subst k; exact ⟨rfl, rfl, rfl, rfl⟩
  · exact ⟨rfl, rfl, rfl, rfl⟩

theorem keepsEngine_chHalt : KeepsEngine chHalt := keepsEngine_onChannel fun t a c p => by
  split
  · exact p.setChannel c _ (ne_active_of (by assumption) (by decide))
  · exact p.setChannel c _ (ne_active_of (by assumption) (by decide))
  · exact p.pend c true t.channels[c].pendingAbort
  all_goals exact p.engine

theorem keepsEngine_chContinue : KeepsEngine chContinue := keepsEngine_onChannel fun t a c p => by
  split
  · exact p.setChannel c _ (ne_active_of (by assumption) (by decide))
  · exact p.setChannel c _ (ne_active_of (by assumption) (by decide))
  all_goals exact p.engine

theorem keepsEngine_chSkip : KeepsEngine chSkip := keepsEngine_onChannel fun t a c p => by
  have marked (h : t.channels[c].state ≠ .active) :
      EngOk ((t.setChannel c t.channels[c].advance).markDone c t.channels[c].control) := by
    rw [markDone_window]
    exact (p.setChannel c _ h).same
  split
  · exact p.setChannel c _ (ne_active_of (by assumption) (by decide))
  · exact p.setChannel c _ (ne_active_of (by assumption) (by decide))
  · exact marked (ne_active_of (by assumption) (by decide))
  · exact marked (ne_active_of (by assumption) (by decide))
  · exact p.engine

theorem keepsEngine_chAbort : KeepsEngine chAbort := keepsEngine_onChannel fun t a c p => by
  split
  case h_7 => exact p.pend c t.channels[c].pendingHalt true
  case h_8 => exact p.engine
  all_goals exact p.setChannel c _ (ne_active_of (by assumption) (by decide))

theorem keepsEngine_fqPop : KeepsEngine fqPop := by
  intro t a p
  unfold fqPop
  split
  · exact p.engine
  · split
    · exact p.engine
    · dsimp only
      cases h : t.firstWaiting with
      | none => rw [popFault_of_none h]; exact p.engine.same
      | some c =>
        rw [popFault_of_some h]
        have hwait := (firstWaiting_eq_some_iff.mp h).1
        exact (p.setChannel c { t.channels[c] with state := .faulted, held := none }
          (ne_active_of hwait (by decide))).same

/-- The waiting requests are declined: the Engine's service goes on with the answer (R36). -/
theorem EngOk.declineWaiting {s : State} (k : EngOk s) : EngOk s.declineWaiting := by
  have h : EngOk (match s.walker.engineWaiting with
      | some _ => ((s.modWalker (fun w => { w with engineWaiting := none })).engineAnswer .declined).settleBus
      | none => s) := by
    split
    · rename_i r hr
      obtain ⟨hw, q⟩ := k.quiet_unasked hr
      exact EngOk.settleBus (k.answer (u := s.modWalker fun w => { w with engineWaiting := none }) hw rfl rfl rfl q _)
    · exact k
  unfold State.declineWaiting
  dsimp only
  split
  · exact h.same
  · exact h

theorem EngOk.urgentRequest {s : State} (k : EngOk s) (src : Source) : EngOk (s.urgentRequest src) := by
  have hlatch : EngOk (match s.urgent.latch with
      | none => { s with urgent := { s.urgent with latch := some src } }
      | some _ => s) := by
    split
    · exact k.same
    · exact k
  unfold State.urgentRequest
  split
  · have hentered : EngOk { s with
        urgent := { s.urgent with mode := .urgentEntry, step := .drain, entryCause := some src } } := k.same
    exact hentered.declineWaiting
  all_goals first | exact hlatch | exact k

theorem keepsEngine_urgentReq : KeepsEngine urgentReq := fun _ _ p => p.engine.urgentRequest _

theorem keepsEngine_resume : KeepsEngine resume := by
  intro t a p
  unfold resume
  split
  · exact p.engine
  · rename_i h
    exact (p.quiet (p.service.1.free (.inr (.inl (not_not.mp h))))).rerunOrRestore

theorem keepsEngine_lockClear : KeepsEngine lockClear := by
  intro t a p
  unfold lockClear
  split
  · exact p.engine
  · rename_i h
    exact (p.quiet (p.service.1.free (.inr (.inr (.inr (not_not.mp h)))))).okSame

theorem keepsEngine_effectOf (code : Byte) : KeepsEngine (effectOf code) :=
  effectOf_forall keepsEngine_domOpen keepsEngine_domClose keepsEngine_invAll keepsEngine_invDomain keepsEngine_invPage
    keepsEngine_probe keepsEngine_chStart keepsEngine_chHalt keepsEngine_chContinue keepsEngine_chSkip
    keepsEngine_chAbort keepsEngine_fqPop keepsEngine_urgentReq keepsEngine_resume keepsEngine_lockClear
    (fun _ _ p => p.engine) code

theorem Bounded.command {s : State} (p : Bounded s) (code : Byte) {f : Effect} (hf : KeepsEngine f) :
    EngOk (s.command code f) := by
  unfold State.command
  split
  · exact p.engine.same
  · have h := hf (s.latch code) s.window.args (p.window _)
    exact h.same

/-! ### The resets -/

theorem endReset_slots (b : Sbi) :
    b.endReset.inFlight = none ∧ b.endReset.walker = none ∧ b.endReset.engine = none ∧ b.endReset.urgent = none := by
  unfold Sbi.endReset
  dsimp only
  split <;> exact ⟨rfl, rfl, rfl, rfl⟩

/-- No access, an IDLE walker and no waiting request. -/
theorem quiet_of_empty {s : State} (h1 : s.sbi.inFlight = none) (h2 : s.sbi.walker = none) (h3 : s.sbi.engine = none)
    (h4 : s.walker.state = .idle) (h5 : s.walker.engineWaiting = none) : Quiet s := by
  refine ⟨?_, ?_, fun a h => ?_, ?_⟩
  · unfold State.engineAccess
    rw [h1, h3]
  · unfold State.engineWalk
    rw [if_neg fun h => h.1 h4, h5]
  · rw [h1] at h; cases h
  · rintro (⟨a, h⟩ | h)
    · rw [h1] at h; cases h
    · exact absurd h2 h

theorem quiet_resetBlocks (s : State) : Quiet s.resetBlocks := by
  obtain ⟨h1, h2, h3, -⟩ := endReset_slots s.sbi
  exact quiet_of_empty h1 h2 h3 rfl rfl

theorem engOk_completeEngineReset (s : State) : EngOk s.completeEngineReset := by
  have q := quiet_resetBlocks s
  unfold State.completeEngineReset State.urqAfterReset
  generalize s.resetBlocks = v at q
  split
  · exact EngOk.urgentRequest (s := { v with urgent := { v.urgent with armed := false } }) q.okSame _
  · exact q.ok

/-- The pending slots are emptied: what is in flight stays (R174). -/
theorem EngOk.emptySlots {s : State} (k : EngOk s) (w : Window) :
    EngOk { s with sbi := s.sbi.emptySlots, window := w } := by
  obtain ⟨hport, ⟨hfree, -, -, hbusy, hasked, hwalk⟩, hpromise⟩ := k
  have fewer (a : Access) (h : ({ s with sbi := s.sbi.emptySlots, window := w } : State).engineAccess = some a) :
      s.engineAccess = some a := by
    revert h
    cases hin : s.sbi.inFlight with
    | none => simp [State.engineAccess, Sbi.emptySlots, hin]
    | some p => obtain ⟨r, b⟩ := p; cases r <;> simp [State.engineAccess, Sbi.emptySlots, hin]
  have none_of {t : Option Access} (h : ∀ a, t ≠ some a) : t = none := Option.eq_none_iff_forall_ne_some.mpr h
  refine ⟨fun c a hs ha => hport c a hs (fewer a ha), ⟨fun hv => none_of fun a ha => ?_, fun _ _ => rfl,
    fun _ _ => rfl, ?_, hasked, fun r hr => ?_⟩, fun c hv hs => ?_⟩
  · rw [hfree hv] at fewer
    cases fewer a ha
  · rintro (h | h)
    · exact hbusy (.inl h)
    · exact absurd rfl h
  · obtain ⟨haccess, hrest⟩ := hwalk r hr
    refine ⟨none_of fun a ha => ?_, hrest⟩
    rw [haccess] at fewer
    cases fewer a ha
  · obtain ⟨h1, h2, h3⟩ := hpromise c hv hs
    refine ⟨h1, h2, fun hk hst hne => h3 hk hst ?_⟩
    obtain ⟨a, ha⟩ := Option.ne_none_iff_exists'.mp hne
    rw [fewer a ha]
    nofun

theorem EngOk.beginEngineReset {s : State} (k : EngOk s) : EngOk s.beginEngineReset := by
  unfold State.beginEngineReset
  split
  · exact k
  · split
    · exact engOk_completeEngineReset s
    · exact k.emptySlots _

/-! ### Register writes and events -/

/-- A CLOSED domain's grant map is written: no channel that the Engine serves is bound to it (R8, R12). -/
theorem Bounded.writeGrants {s : State} (p : Bounded s) (v : Word) : EngOk (s.writeGrants v) := by
  cases hd : s.domains[s.window.tselDomain].state with
  | opened => rw [writeGrants_opened hd]; exact p.engine.same
  | closed =>
    refine Same.of p.engine ?_ ?_ ?_ ?_ ?_ ?_ (fun c _ _ => ?_) fun c hs hv q => ?_
    case refine_8 =>
      rw [portGranted_writeGrants hd, if_neg]
      rintro ⟨hdom, -⟩
      have hopen := stateOf_congr hdom (p.servedOpen hv hs)
      rw [hd] at hopen
      cases hopen
    all_goals rw [writeGrants_closed hd]
    exact ⟨rfl, rfl, rfl, rfl⟩

theorem EngOk.writeField {s : State} (k : EngOk s) (f : DomainField) (v : Word) : EngOk (s.writeField f v) := by
  unfold State.writeField
  dsimp only
  split <;> exact k.same

theorem EngOk.bases {s : State} (k : EngOk s) (v : Word) :
    EngOk (s.writeSaveLow v) ∧ EngOk (s.writeSaveHigh v) ∧ EngOk (s.writeListLow v) ∧ EngOk (s.writeListHigh v) := by
  unfold State.writeSaveLow State.writeSaveHigh State.writeListLow State.writeListHigh
  dsimp only
  refine ⟨?_, ?_, ?_, ?_⟩ <;> split <;> exact k.same

theorem Bounded.writeReg {s : State} (p : Bounded s) (reg : BitVec 6) (v : Word) : EngOk (s.writeReg reg v) := by
  unfold State.writeReg
  split
  case h_1 =>
    unfold State.writeCtrl
    split
    · exact p.engine.beginEngineReset
    · exact p.engine
  case h_2 => exact p.command _ (keepsEngine_effectOf _)
  case h_12 | h_13 | h_14 | h_15 => exact p.engine.writeField _ v
  case h_16 => exact p.writeGrants v
  case h_18 => exact (p.engine.bases v).1
  case h_19 => exact (p.engine.bases v).2.1
  case h_20 => exact (p.engine.bases v).2.2.1
  case h_21 => exact (p.engine.bases v).2.2.2
  all_goals exact p.engine.same

theorem Bounded.wakeLines {s : State} (p : Bounded s) (lines : BitVec 8) : EngOk (s.wakeLines lines) := by
  unfold State.wakeLines
  split
  · refine p.channels fun c hc => ?_
    rw [mapChannels_getElem]
    rcases s.channels[c].wake_cases lines with e | ⟨hw, -⟩
    · rw [e]; exact ⟨rfl, rfl, rfl, rfl⟩
    · rw [hc] at hw; cases hw
  · exact p.engine

theorem Bounded.schedule {s : State} (p : Bounded s) : EngOk s.schedule := by
  unfold State.schedule
  split
  · rename_i c hp hc
    simp only [State.grantPossible, Bool.and_eq_true, beq_iff_eq] at hp
    have q := p.quiet hp.1.1
    unfold State.grantTo
    dsimp only
    refine Quiet.serviceBegin ?_ _ _
    exact q.same rfl rfl
  · exact p.engine

theorem EngOk.grant {s : State} (k : EngOk s) : EngOk { s with sbi := s.sbi.grant } := by
  unfold Sbi.grant
  split
  · have h : EngOk { s with sbi := { s.sbi with tenure := .owner, granted := true } } :=
      k.sbi _ rfl k.2.1.2.1 k.2.1.2.2.1 id
    exact h.settle
  · exact k

theorem EngOk.grantEnds {s : State} (k : EngOk s) : EngOk { s with sbi := s.sbi.grantEnds } := by
  unfold Sbi.grantEnds
  split
  · have h : EngOk { s with sbi := { s.sbi with granted := false } } := k.sbi _ rfl k.2.1.2.1 k.2.1.2.2.1 id
    exact h.settle
  · exact k.sbi _ rfl k.2.1.2.1 k.2.1.2.2.1 id
  · exact k
  · exact k

theorem EngOk.releaseReset {s : State} (k : EngOk s) : EngOk s.releaseReset := by
  unfold State.releaseReset
  split
  · have h : EngOk { s with sbi := { s.sbi with tenure := .releasing } } := k.sbi _ rfl k.2.1.2.1 k.2.1.2.2.1 id
    exact h.same
  · exact k

theorem EngOk.urqFalls {s : State} (k : EngOk s) : EngOk s.urqFalls := by
  unfold State.urqFalls
  dsimp only
  split
  · have h : EngOk { s with
        pins := { s.pins with urqHigh := false }, urgent := { s.urgent with armed := false } } := k.same
    exact h.urgentRequest _
  · exact k.same

/-! ### The save and the restore -/

theorem Bounded.saveWriteEnd {s : State} (p : Bounded s)
    (hmode : s.urgent.mode = .urgentEntry ∧ s.urgent.step = .save) (e : BusEnd) : EngOk (s.saveWriteEnd e) := by
  cases e with
  | busError => exact p.engine.same
  | ready sd =>
    have hfree := p.service.1.free (.inl hmode)
    unfold State.saveWriteEnd
    dsimp only
    split
    · refine Quiet.startRun ?_
      exact (p.quiet hfree).same rfl rfl
    · have h : EngOk { s with urgent := { s.urgent with saveProgress := s.urgent.saveProgress + 1 } } :=
        p.engine.same
      exact h.handOverUrgent _

theorem Quiet.relocate {s : State} (q : Quiet s) : EngOk s.relocate := by
  unfold State.relocate
  dsimp only
  split
  · exact q.okSame
  · unfold State.wakeLines
    split <;> exact q.okSame

theorem Bounded.restoreReadEnd {s : State} (p : Bounded s) (hmode : s.urgent.mode = .urgentRestore) (a : Access)
    (e : BusEnd) : EngOk (s.restoreReadEnd a e) := by
  cases e with
  | busError => exact p.engine.same
  | ready sd =>
    have q : Quiet { s with urgent := { s.urgent with
        image := s.urgent.image ++ [a.taken sd], readProgress := s.urgent.readProgress + 1 } } :=
      (p.quiet (p.service.1.free (.inr (.inr (.inl hmode))))).same rfl rfl
    unfold State.restoreReadEnd
    dsimp only
    split
    · unfold State.finishRestore
      split
      · exact q.okSame
      · refine Quiet.relocate ?_
        exact q.same rfl rfl
    · exact q.ok.handOverUrgent _

/-! ### Every command -/

theorem EngOk.accessEnd {s : State} (k : EngOk s) (r : Slot) (on : Bool) (act : State → Access → State)
    (hact : ∀ a, on = true → s.sbi.inFlight = some (r, a) → EngOk (act { s with sbi := s.sbi.ended } a)) :
    EngOk (s.accessEnd r on act) := by
  unfold State.accessEnd
  split
  · exact k
  · rename_i a ha
    split
    · split
      · exact engOk_completeEngineReset s
      · exact (hact a (by assumption) (carries_eq_some ha)).settleBus
    · exact k

theorem EngOk.unless {s t : State} (k : EngOk s) (h : EngOk t) : EngOk (s.unlessReset t) := kept_unless s t k h

theorem exec_engOk {s t : State} (p : Bounded s) (i : Instr) (hi : i ≠ .hardReset) (e : exec i s = .next t) :
    EngOk t := by
  have k := p.engine
  have ended (b : Sbi) (hb : EngOk { s with sbi := b }) : Bounded { s with sbi := b } := ⟨p.service, p.bound, hb⟩
  cases i <;> (injection e with e; subst e) <;> try refine EngOk.unless k ?_
  case domOpen => exact p.command _ keepsEngine_domOpen
  case domClose => exact p.command _ keepsEngine_domClose
  case invAll => exact p.command _ keepsEngine_invAll
  case invDomain => exact p.command _ keepsEngine_invDomain
  case invPage => exact p.command _ keepsEngine_invPage
  case probe => exact p.command _ keepsEngine_probe
  case chStart => exact p.command _ keepsEngine_chStart
  case chHalt => exact p.command _ keepsEngine_chHalt
  case chContinue => exact p.command _ keepsEngine_chContinue
  case chSkip => exact p.command _ keepsEngine_chSkip
  case chAbort => exact p.command _ keepsEngine_chAbort
  case fqPop => exact p.command _ keepsEngine_fqPop
  case urgentReq => exact p.command _ keepsEngine_urgentReq
  case resume => exact p.command _ keepsEngine_resume
  case lockClear => exact p.command _ keepsEngine_lockClear
  case unknownCommandCode v => exact p.command _ (keepsEngine_effectOf _)
  case engineReset => exact k.beginEngineReset
  case engineResetComplete =>
    split
    · exact engOk_completeEngineReset s
    · exact k
  case domainFieldWrite f v => exact k.writeField f v
  case grantWordWrite v => exact p.writeGrants v
  case saveBaseLowWrite v => exact (k.bases v).1
  case saveBaseHighWrite v => exact (k.bases v).2.1
  case listBaseLowWrite v => exact (k.bases v).2.2.1
  case listBaseHighWrite v => exact (k.bases v).2.2.2
  case registerWrite r v => exact p.writeReg r v
  case hardReset => exact absurd rfl hi
  case rstRelease => exact k.releaseReset
  case urqRequest => exact k.urqFalls
  case lineAsserted n =>
    exact (p.sampleLines _).wakeLines _
  case schedulerGrant preq =>
    exact (p.sampleLines preq).schedule
  case walkStart =>
    split
    · rename_i h
      have hidle : s.walker.state = .idle := by
        simp only [State.walkMayStart, Walker.busy, Bool.and_eq_true, Bool.not_eq_true', bne_eq_false_iff_eq] at h
        exact h.1.1
      exact (k.takeRequest hidle).settleBus
    · exact k
  case walkAccessEnd e =>
    refine k.accessEnd _ _ _ fun a _ hin => ?_
    obtain ⟨hended, hst, hfree⟩ := k.walkerEnded hin
    exact hended.walkAccessEnd hst hfree a e
  case fetchReadEnd e =>
    exact k.accessEnd _ _ _ fun a h hin => (k.quiet_ended hin).fetchReadEnd (by simpa using h) a e
  case beatReadEnd e =>
    refine k.accessEnd _ _ _ fun a h hin => ?_
    simp only [Bool.and_eq_true, beq_iff_eq] at h
    exact k.beatReadEnd hin h.1 h.2 e
  case beatWriteEnd e preq =>
    refine k.accessEnd _ _ _ fun a h hin => ?_
    simp only [Bool.and_eq_true, beq_iff_eq] at h
    have q : Quiet (State.sampleLines { s with sbi := s.sbi.ended } preq) := (k.quiet_ended hin).same rfl rfl
    exact q.beatWriteEnd h.1 e
  case statusWriteEnd e => exact k.accessEnd _ _ _ fun a _ hin => (k.quiet_ended hin).statusWriteEnd e
  case saveBegin =>
    split
    · have h : EngOk { s with urgent := { s.urgent with step := .save, saveProgress := 0 } } := k.same
      exact h.handOverUrgent _
    · exact k
  case saveWriteEnd e =>
    refine k.accessEnd _ _ _ fun a h hin => ?_
    exact (ended _ (k.urgentEnded hin)).saveWriteEnd (by simpa using h) e
  case restoreReadEnd e preq =>
    refine k.accessEnd _ _ _ fun a h hin => ?_
    exact ((ended _ (k.urgentEnded hin)).sampleLines preq).restoreReadEnd (by simpa using h) a e
  case busGrant => exact k.grant
  case busGrantDeasserted => exact k.grantEnds
  all_goals exact k.same

/-! ### The tables -/

/-- A live channel makes its domain busy (R13). -/
theorem domainBusy_of_live {s : State} {c : ChannelId} (h : s.channels[c].Live) :
    s.domainBusy s.channels[c].domain = true := by
  unfold State.domainBusy
  rw [List.any_eq_true]
  refine ⟨c, allChannels_mem c, ?_⟩
  simp only [beq_self_eq_true, Bool.true_and, Bool.and_eq_true, bne_iff_ne]
  exact h

theorem tabOk_of_tables {s t : State} (p : Tables (fun d => s.domains[d].state = .opened) s t) :
    OpenTagsLaw t ∧ BoundLaw t :=
  ⟨fun i w hv => p.domains ▸ p.tags i w hv, fun c hidle hdone => p.domains ▸ p.live c ⟨hidle, hdone⟩⟩

/-- Every table move keeps the entries and the live channels in OPEN domains (R12, R13). -/
theorem TableMove.tabOk {s t : State} {C : Prop} (htags : OpenTagsLaw s) (hbound : BoundLaw s)
    (m : TableMove (fun d => s.domains[d].state = .opened) C s t) : OpenTagsLaw t ∧ BoundLaw t := by
  cases m with
  | steady p => exact tabOk_of_tables p
  | record d r w hd =>
    have stands {k : DomainId} (hk : s.domains[k].state = .opened) : (s.domains.set d r)[k].state = .opened := by
      have hne : k ≠ d := fun h => by
        have hopen := stateOf_congr h hk
        rw [hd] at hopen
        cases hopen
      rw [set_getElem, if_neg hne]
      exact hk
    refine ⟨fun i w hv => ?_, fun c hidle hdone => ?_⟩
    · dsimp only at hv ⊢
      exact stands (htags i w hv)
    · dsimp only at hidle hdone ⊢
      exact stands (hbound c hidle hdone)
  | grant => exact ⟨htags, hbound⟩
  | close d w _ _ hbusy =>
    have stands {k : DomainId} (hk : s.domains[k].state = .opened) (hne : k ≠ d) :
        (s.domains.set d { s.domains[d] with state := .closed })[k].state = .opened := by
      rw [set_getElem, if_neg hne]
      exact hk
    refine ⟨fun i w hv => ?_, fun c hidle hdone => stands (hbound c hidle hdone) fun hd => ?_⟩
    · obtain ⟨hv', hd, hne⟩ := cacheWithout_valid hv
      rw [← hd] at hne
      exact stands (stateOf_congr hd.symm (htags i w hv')) hne
    · dsimp only at hidle hdone hd
      have hlive := domainBusy_of_live (s := s) (c := c) ⟨hidle, hdone⟩
      rw [hd, hbusy] at hlive
      cases hlive

/-- A state of the laws is one from which the tables are followed. -/
theorem ConfinementLaw.fits {s : State} (p : ConfinementLaw s) : Fits (fun d => s.domains[d].state = .opened) s := by
  obtain ⟨hservice, htags, hport, hbound, hout, hpromise⟩ := p
  have hb : Bounded s := ⟨hservice, hbound, hport, hout, hpromise⟩
  refine ⟨⟨rfl, rfl, rfl, fun _ _ h => h, htags, fun c hl => hbound c hl.1 hl.2⟩,
    fun c hv hw => hb.servedOpen hv hw, fun hst hr => ?_, fun _ h => h⟩
  obtain ⟨-, -, -, -, -, hwalk⟩ := hout
  have hw : s.engineWalk = some s.walker.request := by
    unfold State.engineWalk
    rw [if_pos ⟨hst, hr⟩]
  obtain ⟨-, hv, c, hs, hd⟩ := hwalk _ hw
  exact stateOf_congr hd.symm (hb.servedOpen hv hs)

/-- The part right after the assertion of RST/ meets the laws. -/
theorem confinementLaw_of_reset {s : State} (hservice : ServiceLaw s)
    (hc : ∀ c : ChannelId, s.channels[c] = Channel.reset) (he : ∀ (i : Fin 16) (w : Fin 4), s.cache[i][w].valid = false)
    (q : Quiet s) : ConfinementLaw s := by
  obtain ⟨hport, hout, hpromise⟩ := q.ok
  refine ⟨hservice, fun i w hv => ?_, hport, fun c hidle => ?_, hout, hpromise⟩
  · rw [he] at hv; cases hv
  · rw [hc] at hidle; exact absurd rfl hidle

theorem reset_channel (c : ChannelId) : State.reset.channels[c] = Channel.reset := by
  simp [State.reset]

theorem confinementLaw_assertReset (s : State) : ConfinementLaw s.assertReset := by
  refine confinementLaw_of_reset (kept_serviceLaw.reset rfl rfl rfl rfl rfl) reset_channel (fun i w => ?_)
    (quiet_of_empty rfl rfl rfl rfl rfl)
  exact congrArg CacheEntry.valid (reset_entry i w)

theorem exec_confinementLaw {s t : State} (p : ConfinementLaw s) (i : Instr) (e : exec i s = .next t) :
    ConfinementLaw t := by
  by_cases hi : i = .hardReset
  · subst hi
    cases e
    exact confinementLaw_assertReset s
  · have F := p.fits
    obtain ⟨hservice, htags, hport, hbound, hout, hpromise⟩ := p
    obtain ⟨hport', hout', hpromise'⟩ := exec_engOk ⟨hservice, hbound, hport, hout, hpromise⟩ i hi e
    obtain ⟨htags', hbound'⟩ := (exec_tableMove F i t hi e).tabOk htags hbound
    exact ⟨kept_exec kept_serviceLaw i s t hservice e, htags', hport', hbound', hout', hpromise'⟩

/-- Settles O24: the service law, the table part and the engine part of the laws are each kept by every command. -/
theorem confinementLawKept : Obligations.ConfinementLawKept := by
  intro s t p e
  rcases step_cases e with ⟨-, rfl⟩ | ⟨i, rest, -, e⟩
  · exact p
  · exact exec_confinementLaw (s := { s with pending := rest }) p i e

end Sys2Proof.Machine
end

section
/-! SUPPORT. The queue, the two resets and RST/, and the proofs of `Obligations.StepTakesFrontCommand`,
`Obligations.NothingTakenWhileResetHeld`, `Obligations.HardResetAndRelease`, `Obligations.EngineResetEnds`,
`Obligations.EngineResetWaits` and `Obligations.ResetMeetsTheLaws`. -/

namespace Sys2Proof.Machine

/-- Settles O1: a step looks at the queue alone to choose its command. -/
theorem stepTakesFrontCommand : Obligations.StepTakesFrontCommand := by
  refine ⟨fun _ _ _ => rfl, fun s h => ?_⟩
  unfold step
  rw [h]

/-! ### RST/ asserted -/

/-- Every row but the two of RST/ waits for its release (R174, R175). -/
theorem exec_held {c : Instr} {s : State} (h : s.pins.rst = true) (hassert : c ≠ .hardReset) (hrelease : c ≠ .rstRelease) :
    exec c s = .next s := by
  cases c
  case hardReset => exact absurd rfl hassert
  case rstRelease => exact absurd rfl hrelease
  all_goals exact congrArg Host.Outcome.next (unlessReset_held h)

theorem windowRead_held {s : State} (h : s.pins.rst = true) (reg : BitVec 6) : s.windowRead reg = none := if_pos h

theorem windowRead_running {s : State} (h : s.Running) (reg : BitVec 6) : s.windowRead reg = some (s.readReg reg) :=
  if_neg (by rw [h]; nofun)

/-- Settles O3: every row but the two of RST/, and every read, tests RST/ first. -/
theorem nothingTakenWhileResetHeld : Obligations.NothingTakenWhileResetHeld :=
  ⟨fun _ _ h => exec_held h, fun _ reg => ⟨fun h => windowRead_held h reg, fun h => windowRead_running h reg⟩⟩

/-! ### Hard reset (R174, R183) -/

theorem reset_domain (d : DomainId) : State.reset.domains[d] = DomainRecord.reset := by
  simp [State.reset]

theorem reset_pointer (p : Fin 4) : State.reset.pointers[p] = 7 := by
  simp [State.reset]

theorem reset_portGranted (d : DomainId) (p : Port) : State.reset.portGranted d p = false := by
  simp [State.reset, State.portGranted]

/-- With RST/ asserted no bus signal is driven (R170, R174). -/
theorem busOutputs_held {s : State} (h : s.pins.rst = true) : s.busOutputs = none := if_pos (.inl h)

theorem releaseReset_held {s : State} (h : s.pins.rst = true) :
    s.releaseReset = { s with pins := { s.pins with rst := false }, sbi := { s.sbi with tenure := .releasing } } := if_pos h

theorem releaseReset_running {s : State} (h : s.Running) : s.releaseReset = s := if_neg (by rw [h]; nofun)

/-- Settles O4: the state that HARD_RESET leaves is `State.reset` with RST/ asserted, whatever it was before. -/
theorem hardResetAndRelease : Obligations.HardResetAndRelease := by
  refine ⟨fun s => ⟨s.assertReset, rfl, rfl, rfl, busOutputs_held rfl, ?quiet, reset_domain, reset_portGranted,
    fun i w => ?entry, rfl, rfl, rfl, rfl, reset_channel, reset_pointer, rfl, rfl, rfl, rfl, rfl, rfl, rfl, rfl, rfl, rfl,
    rfl, rfl, rfl, rfl, rfl, rfl, rfl, rfl, rfl, ?released⟩, fun s h => ?held, fun s h => ?running⟩
  case quiet => simp [State.intAsserted, State.assertReset, State.reset, Window.reset]
  case entry =>
    have hentry : s.assertReset.cache[i][w] = CacheEntry.reset := reset_entry i w
    rw [hentry]
    exact ⟨rfl, rfl⟩
  case released => exact congrArg Host.Outcome.next (releaseReset_held (s := s.assertReset) rfl)
  case held => exact congrArg Host.Outcome.next (releaseReset_held h)
  case running => exact congrArg Host.Outcome.next (releaseReset_running h)

/-! ### Engine reset (R179) -/

/-- An urgent request with no walk waiting (R139). -/
theorem urgentRequest_normal {s : State} (hmode : s.urgent.mode = .normal) (hengine : s.walker.engineWaiting = none)
    (hprobe : s.walker.probeWaiting = none) (src : Source) :
    s.urgentRequest src = { s with urgent := { s.urgent with mode := .urgentEntry, step := .drain, entryCause := some src } } := by
  unfold State.urgentRequest State.declineWaiting
  simp only [hmode, hengine, hprobe]

/-- The Urgent Controller at the end of an engine reset, a fall of URQ/ that came meanwhile taken (R136, R137). -/
def Urgent.afterReset (u : Urgent) (urqHigh : Bool) : Urgent :=
  if u.armed = true ∧ urqHigh = false then
    { u.endReset with armed := false, mode := .urgentEntry, step := .drain, entryCause := some .line }
  else u.endReset

theorem completeEngineReset_eq (s : State) :
    s.completeEngineReset = { s.resetBlocks with urgent := s.urgent.afterReset s.pins.urqHigh } := by
  have hurgent : s.resetBlocks.urgent = s.urgent.endReset := s.resetBlocks_urgent
  have hwalker : s.resetBlocks.walker = s.walker.endReset := s.resetBlocks_walker
  have hpins : s.resetBlocks.pins = s.pins := s.resetBlocks_pins
  unfold State.completeEngineReset State.urqAfterReset Urgent.afterReset
  generalize s.resetBlocks = t at hurgent hwalker hpins ⊢
  have harmed : t.urgent.armed = s.urgent.armed := by rw [hurgent]; rfl
  rw [harmed]
  by_cases h : s.urgent.armed = true ∧ s.pins.urqHigh = false
  · rw [if_pos (by simpa [hpins] using h), if_pos h,
      urgentRequest_normal (by rw [hurgent]; rfl) (by rw [hwalker]; rfl) (by rw [hwalker]; rfl), hurgent]
  · rw [if_neg (by simpa [hpins] using h), if_neg h, ← hurgent]

theorem endReset_eq (b : Sbi) :
    b.endReset = { Sbi.reset with tenure := if b.tenure = .idle then .idle else .releasing } := by
  unfold Sbi.endReset Sbi.emptySlots
  cases b.tenure <;> simp [Sbi.reset]

/-- What an engine reset leaves: every block's engine-reset state, and what the spec keeps (R179). -/
theorem completeEngineReset_blocks (s : State) :
    let t := s.completeEngineReset
    t.domains = s.domains ∧ t.grants = s.grants ∧ t.pins = s.pins
    ∧ (∀ (i : Fin 16) (w : Fin 4), t.cache[i][w] = { s.cache[i][w] with valid := false, referenced := false })
    ∧ t.walker = s.walker.endReset ∧ (∀ c : ChannelId, t.channels[c] = Channel.reset)
    ∧ (∀ p : Fin 4, t.pointers[p] = 7) ∧ t.engine = Engine.free ∧ t.queue = []
    ∧ t.urgent = s.urgent.afterReset s.pins.urqHigh ∧ t.sbi = s.sbi.endReset ∧ t.window = s.window.endReset := by
  have hdomains := s.resetBlocks_domains
  have hgrants := s.resetBlocks_grants
  have hpins := s.resetBlocks_pins
  have hcache (i : Fin 16) (w : Fin 4) :
      s.resetBlocks.cache[i][w] = { s.cache[i][w] with valid := false, referenced := false } := by
    rw [s.resetBlocks_cache]
    exact (invalidate_getElem s _ i w).trans (if_pos rfl)
  have hwalker := s.resetBlocks_walker
  have hchannels (c : ChannelId) : s.resetBlocks.channels[c] = Channel.reset := by simp
  have hpointers (p : Fin 4) : s.resetBlocks.pointers[p] = 7 := by simp
  have hengine := s.resetBlocks_engine
  have hqueue := s.resetBlocks_queue
  have hsbi := s.resetBlocks_sbi
  have hwindow := s.resetBlocks_window
  rw [completeEngineReset_eq]
  generalize s.resetBlocks = v at *
  exact ⟨hdomains, hgrants, hpins, hcache, hwalker, hchannels, hpointers, hengine, hqueue, rfl, hsbi, hwindow⟩

/-- Settles O5: each of the rows is then `State.completeEngineReset`. -/
theorem engineResetEnds : Obligations.EngineResetEnds := by
  intro s c hrun ends h
  have hc : exec c s = .next s.completeEngineReset := by
    rcases h with ⟨rfl, hno, hin⟩ | ⟨rfl, hre⟩ | ⟨⟨hre, a, hin⟩, e, rfl⟩ | ⟨⟨hre, a, hin⟩, e, preq, hrow⟩
      | ⟨⟨hre, a, hin⟩, e, preq, hrow⟩
    · refine congrArg Host.Outcome.next ((unlessReset_running hrun).trans ?_)
      unfold State.beginEngineReset
      rw [hno, hin, if_neg nofun, if_pos rfl]
    · exact congrArg Host.Outcome.next ((unlessReset_running hrun).trans (if_pos hre))
    · exact congrArg Host.Outcome.next (accessEnd_resetting hrun hre hin rfl _)
    · rcases hrow with ⟨hv, rfl⟩ | ⟨hv, hstage, rfl⟩ | ⟨hv, hstage, rfl⟩ | ⟨hv, rfl⟩ <;>
        exact congrArg Host.Outcome.next (accessEnd_resetting hrun hre hin (by simp [*]) _)
    · rcases hrow with ⟨hmode, hstep, rfl⟩ | ⟨hmode, rfl⟩ <;>
        exact congrArg Host.Outcome.next (accessEnd_resetting hrun hre hin (by simp [*]) _)
  obtain ⟨hdomains, hgrants, hpins, hcache, hwalker, hchannels, hpointers, hengine, hqueue, hurgent, hsbi, hwindow⟩ :=
    completeEngineReset_blocks s
  refine ⟨_, hc, hdomains, hgrants, hpins, hcache, ?_, ?_, ?_, ?_, hchannels, hpointers, hengine, hqueue, hurgent,
    hsbi.trans (endReset_eq _), hwindow⟩ <;> rw [hwalker] <;> rfl

theorem grantPossible_resetting {s : State} (h : s.window.resetting = true) : s.grantPossible = false := by
  simp [State.grantPossible, h]

theorem schedule_impossible {s : State} (h : s.grantPossible = false) : s.schedule = s := by
  unfold State.schedule
  rw [h]

theorem wakeLines_resetting {s : State} (h : s.window.resetting = true) (lines : BitVec 8) : s.wakeLines lines = s :=
  if_neg fun k => k.2 h

/-- Settles O6: each of the rows tests that no engine reset is in progress. -/
theorem engineResetWaits : Obligations.EngineResetWaits := by
  refine ⟨fun s x hrun hno hin => ?begins, fun s hrun hre => ⟨?again, ?walk, ?save, fun preq => ?grant, fun n => ?line, ?urq⟩⟩
  all_goals refine congrArg Host.Outcome.next ((unlessReset_running hrun).trans ?_)
  case begins =>
    unfold State.beginEngineReset
    rw [hno, hin, if_neg nofun, if_neg nofun]
    rfl
  case again => exact if_pos hre
  case walk => exact if_neg (by simp [State.walkMayStart, hre])
  case save => exact if_neg (by simp [State.drained, hre])
  case grant => exact schedule_impossible (grantPossible_resetting (s := s.sampleLines preq) hre)
  case line => exact wakeLines_resetting (s := s.sampleLines (s.pins.preq ||| 1#8 <<< n.val)) hre _
  case urq => exact if_neg fun k => k.2 hre

/-! ### What reset leaves -/

/-- Settles O60: each law holds of every state that reset leaves, and the part after reset is one. -/
theorem resetMeetsTheLaws : Obligations.ResetMeetsTheLaws := by
  have hservice : ServiceLaw State.reset := kept_serviceLaw.reset rfl rfl rfl rfl rfl
  refine ⟨fun i => ⟨0, congrArg CacheEntry.referenced (reset_entry i 0)⟩, ?tags, kept_queueLaw.reset rfl rfl rfl rfl rfl,
    kept_latchLaw.reset rfl rfl rfl rfl rfl, hservice, kept_countsLaw.reset rfl rfl rfl rfl rfl,
    confinementLaw_of_reset hservice reset_channel (fun i w => congrArg CacheEntry.valid (reset_entry i w))
      (quiet_of_empty rfl rfl rfl rfl rfl)⟩
  have invalid (i : Fin 16) (w : Fin 4) : ¬ State.reset.cache[i][w].valid = true := by rw [reset_entry]; nofun
  exact ⟨fun i w h => absurd h (invalid i w), fun i w _ h => absurd h (invalid i w)⟩

end Sys2Proof.Machine
end

section
/-! SUPPORT. Host writes and the rows that they are, and the proofs of `Obligations.HostWritesAndRowsAgree`,
`Obligations.RegisterMapRunsRows` and `Obligations.RegisterWritesStoreOrVanish`. -/

namespace Sys2Proof.Machine

open Sys2Proof.Laws

/-! ### The row of a write -/

/-- A word is put together from its bytes. -/
theorem commandWrite_low {v : Word} {code : Byte} (h : (v.extractLsb' 0 8).toNat = code.toNat) :
    commandWrite code (v.extractLsb' 8 8) = some (0x02#6, v) := by
  have hv := v.isLt
  refine congrArg (fun w => some (0x02#6, w)) (BitVec.eq_of_toNat_eq ?_)
  rw [append_toNat, ← h, field_toNat, field_toNat]
  omega

/-- The row of a write to CMD spells that write (R176). -/
theorem rowOfCommand_asWrite (v : Word) : (rowOfCommand v).asWrite = some (0x02#6, v) := by
  unfold rowOfCommand
  split <;> rename_i h
  case h_16 => rfl
  all_goals exact commandWrite_low h

theorem rowOfCommand_wellFormed (v : Word) : (rowOfCommand v).wellFormed = true := by
  unfold rowOfCommand
  split
  case h_16 =>
    simp only [imp_false] at *
    simp only [Instr.wellFormed, namesCommand, Bool.not_eq_true', Bool.and_eq_false_iff, decide_eq_false_iff_not]
    omega
  all_goals rfl

/-- The row of a write spells that write. -/
theorem rowOfWrite_asWrite (reg : BitVec 6) (v : Word) : (rowOfWrite reg v).asWrite = some (reg, v) := by
  unfold rowOfWrite
  split <;> rename_i h
  case h_18 => rfl
  case h_2 =>
    rw [rowOfCommand_asWrite]
    exact congrArg (fun r => some (r, v)) (BitVec.eq_of_toNat_eq (by change 2 = _; omega))
  case h_1 =>
    split
    case isFalse => rfl
    case isTrue hv =>
      rw [hv]
      exact congrArg (fun r => some (r, Config.engineResetKey)) (BitVec.eq_of_toNat_eq (by change 1 = _; omega))
  all_goals
    refine congrArg (fun r => some (r, v)) (BitVec.eq_of_toNat_eq ?_)
    rw [← Nat.mul_left_cancel_iff Nat.two_pos, h]
    rfl

theorem rowOfWrite_wellFormed (reg : BitVec 6) (v : Word) : (rowOfWrite reg v).wellFormed = true := by
  unfold rowOfWrite
  split <;> rename_i h
  case h_2 => exact rowOfCommand_wellFormed v
  case h_1 =>
    split
    case isTrue => rfl
    case isFalse hv => simp [Instr.wellFormed, hasOwnRow, h, hv]
  case h_18 => simp_all [Instr.wellFormed, hasOwnRow]
  all_goals rfl

/-- Settles O7: the row of a write spells it; and the family `HostWrite` says it of every row. -/
theorem hostWritesAndRowsAgree : Obligations.HostWritesAndRowsAgree := by
  refine ⟨fun reg v => ⟨rowOfWrite_wellFormed reg v, rowOfWrite_asWrite reg v⟩, fun i reg v wf hwrite => ?_⟩
  have row : HostWrite.Statement i := by
    clear wf hwrite
    cases i
    case domOpen hi => exact HostWrite.domOpen hi
    case domClose hi => exact HostWrite.domClose hi
    case invAll hi => exact HostWrite.invAll hi
    case invDomain hi => exact HostWrite.invDomain hi
    case invPage hi => exact HostWrite.invPage hi
    case probe hi => exact HostWrite.probe hi
    case chStart hi => exact HostWrite.chStart hi
    case chHalt hi => exact HostWrite.chHalt hi
    case chContinue hi => exact HostWrite.chContinue hi
    case chSkip hi => exact HostWrite.chSkip hi
    case chAbort hi => exact HostWrite.chAbort hi
    case fqPop hi => exact HostWrite.fqPop hi
    case urgentReq hi => exact HostWrite.urgentReq hi
    case resume hi => exact HostWrite.resume hi
    case lockClear hi => exact HostWrite.lockClear hi
    case unknownCommandCode v => exact HostWrite.unknownCommandCode v
    case engineReset => exact HostWrite.engineReset
    case tselWrite v => exact HostWrite.tselWrite v
    case domainFieldWrite f v => exact HostWrite.domainFieldWrite f v
    case grantWordWrite v => exact HostWrite.grantWordWrite v
    case cselWrite v => exact HostWrite.cselWrite v
    case wflgWrite v => exact HostWrite.wflgWrite v
    case doneFlagClear v => exact HostWrite.doneFlagClear v
    case icauseWrite v => exact HostWrite.icauseWrite v
    case ienaWrite v => exact HostWrite.ienaWrite v
    case saveBaseLowWrite v => exact HostWrite.saveBaseLowWrite v
    case saveBaseHighWrite v => exact HostWrite.saveBaseHighWrite v
    case listBaseLowWrite v => exact HostWrite.listBaseLowWrite v
    case listBaseHighWrite v => exact HostWrite.listBaseHighWrite v
    case registerWrite reg v => exact HostWrite.registerWrite reg v
    all_goals exact HostWrite.of_none rfl
  exact row wf reg v hwrite

/-! ### The effect of a write -/

theorem lowByte_append (hi code : Byte) : lowByte (hi ++ code) = code := HostWrite.low_of_append hi code

/-- A row that is a host write has the effect of that write on the register map. -/
theorem exec_of_asWrite {i : Instr} {reg : BitVec 6} {v : Word} (h : i.asWrite = some (reg, v)) (s : State) :
    exec i s = .next (s.unlessReset (s.writeReg reg v)) := by
  have writes (code hi : Byte) (hw : commandWrite code hi = some (reg, v)) :
      s.writeReg reg v = s.command code (effectOf code) := by
    cases hw
    change s.writeCmd (hi ++ code) = _
    unfold State.writeCmd
    rw [lowByte_append]
  cases i
  case domOpen hi => rw [writes 0x01#8 hi h]; rfl
  case domClose hi => rw [writes 0x02#8 hi h]; rfl
  case invAll hi => rw [writes 0x03#8 hi h]; rfl
  case invDomain hi => rw [writes 0x04#8 hi h]; rfl
  case invPage hi => rw [writes 0x05#8 hi h]; rfl
  case probe hi => rw [writes 0x06#8 hi h]; rfl
  case chStart hi => rw [writes 0x07#8 hi h]; rfl
  case chHalt hi => rw [writes 0x08#8 hi h]; rfl
  case chContinue hi => rw [writes 0x09#8 hi h]; rfl
  case chSkip hi => rw [writes 0x0A#8 hi h]; rfl
  case chAbort hi => rw [writes 0x0B#8 hi h]; rfl
  case fqPop hi => rw [writes 0x0C#8 hi h]; rfl
  case urgentReq hi => rw [writes 0x0D#8 hi h]; rfl
  case resume hi => rw [writes 0x0E#8 hi h]; rfl
  case lockClear hi => rw [writes 0x0F#8 hi h]; rfl
  case domainFieldWrite f v => cases f <;> cases h <;> rfl
  all_goals cases h <;> rfl

/-- Settles O8: the row of a write spells that write. -/
theorem registerMapRunsRows : Obligations.RegisterMapRunsRows :=
  fun reg v s => exec_of_asWrite (rowOfWrite_asWrite reg v) s

/-! ### Registers without behaviour of their own -/

/-- A write to a register without behaviour of its own stores an argument, or vanishes (R175). -/
theorem writeReg_plain {reg : BitVec 6} {v : Word} (h : (Instr.registerWrite reg v).wellFormed = true) (s : State) :
    (∃ n : Fin 4, reg.toNat = 4 + n.val ∧ s.writeReg reg v = s.writeArg n v)
      ∨ (¬ (4 ≤ reg.toNat ∧ reg.toNat ≤ 7) ∧ s.writeReg reg v = s) := by
  simp only [Instr.wellFormed, hasOwnRow, List.contains_cons, List.contains_nil, Bool.not_eq_true', Bool.or_eq_false_iff,
    beq_eq_false_iff_ne, Bool.and_eq_false_iff] at h
  obtain ⟨hctrl, hrows⟩ := h
  unfold State.writeReg
  split <;> rename_i hreg
  case h_1 =>
    have hv : v ≠ Config.engineResetKey := hctrl.resolve_left (· hreg)
    exact .inr ⟨by omega, if_neg hv⟩
  case h_3 => exact .inl ⟨0, by change _ = 4; omega, rfl⟩
  case h_4 => exact .inl ⟨1, by change _ = 5; omega, rfl⟩
  case h_5 => exact .inl ⟨2, by change _ = 6; omega, rfl⟩
  case h_6 => exact .inl ⟨3, by change _ = 7; omega, rfl⟩
  case h_22 =>
    refine .inr ⟨?_, rfl⟩
    simp only [imp_false] at *
    omega
  all_goals simp [hreg] at hrows

/-- An argument by its number (R176). -/
def Args.get (a : Args) : Fin 4 → Word
  | 0 => a.arg0
  | 1 => a.arg1
  | 2 => a.arg2
  | 3 => a.arg3

theorem Args.get_write (a : Args) (n m : Fin 4) (v : Word) : (a.write n v).get m = if m = n then v else a.get m := by
  fin_cases n <;> fin_cases m <;> rfl

theorem readReg_arg {r : BitVec 6} {m : Fin 4} (h : r.toNat = 4 + m.val) (s : State) : s.readReg r = s.window.args.get m := by
  obtain rfl : r = BitVec.ofNat 6 (4 + m.val) := BitVec.eq_of_toNat_eq (by rw [BitVec.toNat_ofNat]; omega)
  fin_cases m <;> rfl

/-- No other register shows an argument. (The fifth goal stands, in turn, for the numbers 4 to 7.) -/
theorem readReg_notArg (s : State) (a : Args) (r : BitVec 6) (h : ¬ (4 ≤ r.toNat ∧ r.toNat ≤ 7)) :
    { s with window := { s.window with args := a } }.readReg r = s.readReg r := by
  obtain ⟨k⟩ := r
  fin_cases k
  iterate 4 on_goal 5 => exact absurd ⟨by decide, by decide⟩ h
  all_goals rfl

theorem readReg_writeArg {reg : BitVec 6} {n : Fin 4} (h : reg.toNat = 4 + n.val) (s : State) (v : Word) (r : BitVec 6) :
    (s.writeArg n v).readReg r = if r = reg then v else s.readReg r := by
  by_cases harg : 4 ≤ r.toNat ∧ r.toNat ≤ 7
  · obtain ⟨m, hm⟩ : ∃ m : Fin 4, r.toNat = 4 + m.val := ⟨⟨r.toNat - 4, by omega⟩, by simp only; omega⟩
    have hiff : m = n ↔ r = reg := by rw [← BitVec.toNat_inj, Fin.ext_iff]; omega
    rw [readReg_arg hm, readReg_arg hm]
    exact (Args.get_write _ n m v).trans (if_congr hiff rfl rfl)
  · rw [if_neg fun hr => harg (by rw [hr]; omega)]
    exact readReg_notArg s _ r harg

/-- Settles O9: such a write is the one of an argument, or none. -/
theorem registerWritesStoreOrVanish : Obligations.RegisterWritesStoreOrVanish := by
  refine ⟨fun reg v s hrun wf => ?_, fun s => ⟨rfl, rfl, fun r hr => ?_⟩⟩
  · refine ⟨_, congrArg Host.Outcome.next (unlessReset_running hrun), ?_⟩
    rcases writeReg_plain wf s with ⟨n, hreg, hw⟩ | ⟨hreg, hw⟩ <;> rw [hw]
    · have harg : 4 ≤ reg.toNat ∧ reg.toNat ≤ 7 := by omega
      exact ⟨rfl, fun _ => (readReg_writeArg hreg s v reg).trans (if_pos rfl),
        fun r hr => (readReg_writeArg hreg s v r).trans (if_neg (hr.resolve_right (· harg)))⟩
    · exact ⟨rfl, fun h => absurd h hreg, fun _ _ => rfl⟩
  · simp only [List.mem_cons, List.not_mem_nil, or_false] at hr
    unfold State.readReg
    rcases hr with h | h | h | h | h | h | h | h | h | h | h | h | h <;> rw [h] <;> rfl

end Sys2Proof.Machine
end

section
/-! SUPPORT. What the registers of the window show, and the proofs of `Obligations.SelectorWritesSelect`,
`Obligations.CausesFlagsAndInterrupt` and `Obligations.RegistersShowTheState`. -/

namespace Sys2Proof.Machine

/-! ### The selectors (R5, R81) -/

/-- A number below the power of two that a field holds is that field. -/
theorem ofNat_toNat_mod {k : Nat} (x : BitVec k) (n : Nat) (h : n = x.toNat) : BitVec.ofNat k n = x := by
  rw [h, BitVec.ofNat_toNat, BitVec.setWidth_eq]

theorem tsel_masked (v : Word) : 0#4 ++ v.extractLsb' 8 4 ++ 0#4 ++ v.extractLsb' 0 4 = v &&& 0x0F0F#16 := by
  apply BitVec.eq_of_getLsbD_eq
  intro i hi
  simp only [BitVec.getLsbD_append, BitVec.getLsbD_extractLsb', BitVec.getLsbD_and]
  interval_cases i <;> simp

theorem low_masked (v : Word) (k : Nat) (m : Word) (h : m.toNat = 2 ^ k - 1) : (v.extractLsb' 0 k).setWidth 16 = v &&& m := by
  apply BitVec.eq_of_toNat_eq
  rw [BitVec.toNat_setWidth, field_toNat, BitVec.toNat_and, h, Nat.and_two_pow_sub_one_eq_mod, Nat.pow_zero, Nat.div_one]
  exact Nat.mod_eq_of_lt (lt_of_le_of_lt (Nat.mod_le _ _) v.isLt)

theorem readReg_tsel (s : State) : s.readReg 0x10#6 =
    0#4 ++ BitVec.ofNat 4 s.window.tselGroup.val ++ 0#4 ++ BitVec.ofNat 4 s.window.tselDomain.val := rfl

theorem readReg_csel (s : State) : s.readReg 0x1C#6 = BitVec.ofNat 16 s.window.csel.val := rfl

/-- Settles O10: the selectors are fields of the written value, and are shown where they were written. -/
theorem selectorWritesSelect : Obligations.SelectorWritesSelect := by
  intro v s hrun
  have hlow : (v.extractLsb' 0 4).toNat = v.toNat % 16 := by rw [field_toNat]; omega
  have hhigh : (v.extractLsb' 8 4).toNat = v.toNat / 256 % 16 := field_toNat v 8 4
  have hcsel : (v.extractLsb' 0 3).toNat = v.toNat % 8 := by rw [field_toNat]; omega
  refine ⟨⟨_, congrArg Host.Outcome.next (unlessReset_running hrun), ?shown, ?domain, ?group, rfl⟩,
    _, congrArg Host.Outcome.next (unlessReset_running hrun), ?cshown, ?channel, rfl⟩
  case domain =>
    change (v.extractLsb' 0 4).toNat % 16 = _
    omega
  case group =>
    change (v.extractLsb' 8 4).toNat % 16 = _
    omega
  case channel =>
    change (v.extractLsb' 0 3).toNat % 8 = _
    omega
  case shown =>
    rw [readReg_tsel, ← tsel_masked]
    congr 1
    · congr 2
      exact ofNat_toNat_mod _ _ (Nat.mod_eq_of_lt (v.extractLsb' 8 4).isLt)
    · exact ofNat_toNat_mod _ _ (Nat.mod_eq_of_lt (v.extractLsb' 0 4).isLt)
  case cshown =>
    rw [readReg_csel, ← low_masked v 3 0x0007#16 rfl]
    refine BitVec.eq_of_toNat_eq ?_
    change ((v.extractLsb' 0 3).toNat % 8) % 2 ^ 16 = _
    rw [BitVec.toNat_setWidth, hcsel]
    omega

/-! ### Causes, flags and INT/ (R178 to R182) -/

theorem readReg_icause (s : State) : s.readReg 0x08#6 = s.causes.setWidth 16 := rfl

theorem readReg_iena (s : State) : s.readReg 0x09#6 = s.window.iena.setWidth 16 := rfl

theorem readReg_done (s : State) : s.readReg 0x0B#6 = s.window.done.setWidth 16 := rfl

/-- Each cause at its bit of ICAUSE (R181). -/
theorem causes_bits (s : State) :
    s.causes.getLsbD 0 = (s.window.done != 0) ∧ s.causes.getLsbD 1 = (s.queue.length != 0)
    ∧ s.causes.getLsbD 2 = s.window.urgentCause ∧ s.causes.getLsbD 3 = s.window.lockCause
    ∧ s.causes.getLsbD 4 = s.window.cmdCause := by
  have bits (a b c d e : Bool) :
      (bit a ++ bit b ++ bit c ++ bit d ++ bit e).getLsbD 0 = e ∧ (bit a ++ bit b ++ bit c ++ bit d ++ bit e).getLsbD 1 = d
      ∧ (bit a ++ bit b ++ bit c ++ bit d ++ bit e).getLsbD 2 = c
      ∧ (bit a ++ bit b ++ bit c ++ bit d ++ bit e).getLsbD 3 = b
      ∧ (bit a ++ bit b ++ bit c ++ bit d ++ bit e).getLsbD 4 = a := by
    revert a b c d e; decide
  exact bits _ _ _ _ _

/-- A register that shows a field in its low bits shows that field's bits there. -/
theorem getLsbD_shown {k : Nat} (x : BitVec k) {i : Nat} (h : i < 16) : (x.setWidth 16).getLsbD i = x.getLsbD i := by
  rw [BitVec.getLsbD_setWidth, decide_eq_true h, Bool.true_and]

theorem toNat_shown_lt {k : Nat} (x : BitVec k) : (x.setWidth 16).toNat < 2 ^ k := by
  rw [BitVec.toNat_setWidth]
  exact lt_of_le_of_lt (Nat.mod_le _ _) x.isLt

/-- INT/ is asserted while some cause stands whose enable is 1 (R182). -/
theorem intAsserted_iff (s : State) :
    s.intAsserted = true ↔ ∃ n : Fin 5, s.causes.getLsbD n.val = true ∧ s.window.iena.getLsbD n.val = true := by
  have hzero (x : BitVec 5) : x ≠ 0 ↔ ∃ n : Fin 5, x.getLsbD n.val = true := by revert x; decide
  unfold State.intAsserted
  rw [bne_iff_ne, hzero]
  simp only [BitVec.getLsbD_and, Bool.and_eq_true]

theorem doneFlag_writeDone (s : State) (v : Word) (c : ChannelId) :
    (s.writeDone v).doneFlag c = (s.doneFlag c && !v.getLsbD c.val) := by
  have hc := c.isLt
  unfold State.writeDone State.clearDone State.doneFlag lowByte
  simp only [BitVec.getLsbD_and, BitVec.getLsbD_not, BitVec.getLsbD_extractLsb', hc, decide_true, Bool.true_and, Nat.zero_add]

/-- Settles O11: the four writes are updates of the window, and the causes and flags are shown at their bits. -/
theorem causesFlagsAndInterrupt : Obligations.CausesFlagsAndInterrupt := by
  refine ⟨fun v s hrun => ⟨?_, ?_, ⟨_, ?_, doneFlag_writeDone s v, rfl⟩, s.writeIena v, ?_, ?shown, rfl⟩,
    fun s => ?_⟩
  iterate 4 exact congrArg Host.Outcome.next (unlessReset_running hrun)
  case shown => exact low_masked v 5 0x001F#16 rfl
  obtain ⟨hdone, hfault, hurgent, hlock, hcmd⟩ := causes_bits s
  rw [readReg_icause, readReg_iena, readReg_done]
  have hcauses : (s.causes.setWidth 16).toNat < 32 := toNat_shown_lt s.causes
  have hiena : (s.window.iena.setWidth 16).toNat < 32 := toNat_shown_lt s.window.iena
  have hflags : (s.window.done.setWidth 16).toNat < 256 := toNat_shown_lt s.window.done
  refine ⟨?_, ?_, ?_, ?_, ?_, hcauses, hiena, fun c => getLsbD_shown _ (by omega), hflags, ?_⟩
  · rw [getLsbD_shown _ (by omega), hdone]
  · rw [getLsbD_shown _ (by omega), hfault]
  · rw [getLsbD_shown _ (by omega), hurgent]
  · rw [getLsbD_shown _ (by omega), hlock]
  · rw [getLsbD_shown _ (by omega), hcmd]
  · rw [intAsserted_iff]
    refine exists_congr fun n => ?_
    rw [getLsbD_shown _ (by omega), getLsbD_shown _ (by omega)]

end Sys2Proof.Machine
end

section
/-! SUPPORT. The views of the registers as numbers, and the proof of `Obligations.RegistersShowTheState`. -/

namespace Sys2Proof.Machine

/-! ### The views of the parts -/

theorem bit_toNat (b : Bool) : (bit b).toNat = b.toNat := BitVec.toNat_ofBool b

theorem lineBits_toNat (l : Option (Fin 8)) : (lineBits l).toNat = (match l with | some n => n.val | none => 15) := by
  cases l with
  | none => rfl
  | some n =>
    change n.val % 2 ^ 4 = n.val
    omega

theorem latchSourceBit_toNat (l : Option Source) : (latchSourceBit l).toNat = (l == some .command).toNat := by
  rcases l with - | _ | _ <;> rfl

theorem Window.flagsView_toNat (w : Window) : w.flagsView.toNat =
    w.tableLocked.toNat + 2 * w.refused.toNat + 256 * w.busy.toNat + 512 * w.resetting.toNat := by
  unfold Window.flagsView
  simp only [append_toNat, bit_toNat, BitVec.toNat_ofNat, Nat.zero_mod]
  omega

theorem DomainRecord.flagsView_toNat (r : DomainRecord) :
    r.flagsView.toNat = r.readOnly.toNat + 2 * r.trackUsed.toNat + 4 * r.trackWritten.toNat := by
  unfold DomainRecord.flagsView
  simp only [append_toNat, bit_toNat, BitVec.toNat_ofNat, Nat.zero_mod]
  omega

theorem ProbeResult.info_toNat (r : ProbeResult) :
    r.info.toNat = r.hit.toNat + 2 * r.writable.toNat + 4 * r.writtenKnown.toNat := by
  unfold ProbeResult.info
  simp only [append_toNat, bit_toNat, BitVec.toNat_ofNat, Nat.zero_mod]
  omega

theorem Channel.statusView_toNat (x : Channel) : x.statusView.toNat =
    x.state.bits.toNat + 16 * x.phase.bits.toNat + 64 * x.code.bits.toNat + 256 * x.completion.bits.toNat
      + 4096 * x.pendingHalt.toNat + 8192 * x.pendingAbort.toNat + 16384 * x.held.isSome.toNat := by
  unfold Channel.statusView
  simp only [append_toNat, bit_toNat, BitVec.toNat_ofNat, Nat.zero_mod]
  omega

theorem Channel.bindingView_toNat (x : Channel) : x.bindingView.toNat =
    x.domain.val + 16 * x.priority.val + 256 * (match x.line with | some n => n.val | none => 15) := by
  unfold Channel.bindingView
  simp only [append_toNat, lineBits_toNat, BitVec.toNat_ofNat, Nat.zero_mod]
  omega

theorem Channel.controlView_toNat (x : Channel) : x.controlView.toNat = x.control.toNat + 256 * x.burst.toNat := by
  unfold Channel.controlView
  simp only [append_toNat, BitVec.toNat_ofNat, Nat.zero_mod]
  omega

theorem FaultRecord.kindView_toNat (r : FaultRecord) :
    r.kindView.toNat = r.kind.bits.toNat + 16 * r.access.bits.toNat + 256 * r.phase.bits.toNat := by
  unfold FaultRecord.kindView
  simp only [append_toNat, BitVec.toNat_ofNat, Nat.zero_mod]
  omega

theorem FaultRecord.channelView_toNat (r : FaultRecord) : r.channelView.toNat = r.channel.val + 16 * r.domain.val := by
  unfold FaultRecord.channelView
  simp only [append_toNat, BitVec.toNat_ofNat, Nat.zero_mod]
  omega

theorem Urgent.statusView_toNat (u : Urgent) : u.statusView.toNat =
    u.mode.bits.toNat + 8 * u.latch.isSome.toNat + 16 * (u.latch == some .command).toNat
      + 64 * (causeBits u.entryCause).toNat + 256 * u.fault.bits.toNat + 4096 * u.u.phase.bits.toNat := by
  unfold Urgent.statusView
  simp only [append_toNat, bit_toNat, latchSourceBit_toNat, BitVec.toNat_ofNat, Nat.zero_mod]
  omega

theorem LockCause.view_toNat (l : LockCause) : l.view.toNat = l.kind.bits.toNat + 256 * l.place.toNat := by
  unfold LockCause.view
  simp only [append_toNat, BitVec.toNat_ofNat, Nat.zero_mod]
  omega

/-! ### Fields of addresses -/

theorem lowWord_toNat (l : Long) : (lowWord l).toNat = l.toNat % 65536 := by
  unfold lowWord
  rw [field_toNat]
  omega

theorem highWord_toNat (l : Long) : (highWord l).toNat = l.toNat / 65536 := by
  have := l.isLt
  unfold highWord
  rw [field_toNat]
  omega

theorem low16_toNat {k : Nat} (a : BitVec k) : (a.extractLsb' 0 16).toNat = a.toNat % 65536 := by
  rw [field_toNat]
  omega

theorem high6_toNat (l : Long) : (high6 l).toNat = l.toNat / 65536 % 64 := by
  unfold high6
  rw [append_toNat, field_toNat]
  simp only [BitVec.toNat_ofNat, Nat.zero_mod]
  omega

/-- Bits 21..16 of an address of 22 bits, in a register. -/
theorem top6_toNat (a : BitVec 22) : (0#10 ++ a.extractLsb' 16 6).toNat = a.toNat / 65536 := by
  have := a.isLt
  rw [append_toNat, field_toNat]
  simp only [BitVec.toNat_ofNat, Nat.zero_mod]
  omega

theorem high8_toNat (a : PAddr) : (high8 a).toNat = a.toNat / 65536 := by
  have := a.isLt
  unfold high8
  rw [append_toNat, field_toNat]
  simp only [BitVec.toNat_ofNat, Nat.zero_mod]
  omega

/-- A field shown in a register's low bits is the register's number. -/
theorem shown_toNat {k : Nat} (x : BitVec k) (h : k ≤ 16) : (x.setWidth 16).toNat = x.toNat := by
  rw [BitVec.toNat_setWidth]
  exact Nat.mod_eq_of_lt (lt_of_lt_of_le x.isLt (Nat.pow_le_pow_right Nat.two_pos h))

/-- A grant bit as the selected word shows it (R4, R6). -/
theorem grantWord_bit (s : State) (d : DomainId) (g i : Fin 16) :
    s.grants[d][g].getLsbD i.val = s.portGranted d (BitVec.ofNat 8 (16 * g.val + i.val)) := by
  have hp : (BitVec.ofNat 8 (16 * g.val + i.val)).toNat = 16 * g.val + i.val := by
    rw [BitVec.toNat_ofNat]
    omega
  have hgroup : portGroup (BitVec.ofNat 8 (16 * g.val + i.val)) = g := by
    apply Fin.ext
    change (BitVec.ofNat 8 (16 * g.val + i.val)).toNat / 16 % 16 = g.val
    omega
  unfold State.portGranted
  simp only [hgroup, hp]
  congr 1
  omega

theorem headView_cons {s : State} {r : FaultRecord} {rest : List FaultRecord} (h : s.queue = r :: rest)
    (f : FaultRecord → Word) : s.headView f = f r := by
  unfold State.headView
  rw [h]

theorem headView_nil {s : State} (h : s.queue = []) (f : FaultRecord → Word) : s.headView f = 0 := by
  unfold State.headView
  rw [h]

/-! ### The registers by number -/

/-- Settles O12: each register is a view, and each view is its fields at their bits. -/
theorem registersShowTheState : Obligations.RegistersShowTheState := by
  intro s d x u p reg phase state code completion kind access mode cause fault lock result outcome
  have hphase (a : Phase) : a.bits.toNat = phase a := by cases a <;> rfl
  have hstate (a : ChannelState) : a.bits.toNat = state a := by cases a <;> rfl
  have hcode (a : WritebackCode) : a.bits.toNat = code a := by cases a <;> rfl
  have hcompletion (a : Completion) : a.bits.toNat = completion a := by cases a <;> rfl
  have hkind (a : FaultKind) : a.bits.toNat = kind a := by cases a <;> rfl
  have haccess (a : FaultAccess) : a.bits.toNat = access a := by cases a <;> rfl
  have hmode (a : Mode) : a.bits.toNat = mode a := by cases a <;> rfl
  have hcause (a : Option Source) : (causeBits a).toNat = cause a := by rcases a with - | _ | _ <;> rfl
  have hfault (a : UrgentFault) : a.bits.toNat = fault a := by cases a <;> rfl
  have hlock (a : LockKind) : a.bits.toNat = lock a := by cases a <;> rfl
  have hresult (a : Result) : (a.bits.setWidth 16).toNat = result a := by cases a <;> rfl
  have houtcome (a : ProbeOutcome) : (a.bits.setWidth 16).toNat = outcome a := by cases a <;> rfl
  refine ⟨⟨shown_toNat _ (by omega), hresult _, s.window.flagsView_toNat⟩,
    ⟨?dbl, ?dbh, shown_toNat _ (by omega), d.flagsView_toNat, ?opened, grantWord_bit s _ _⟩,
    ⟨houtcome _, low16_toNat _, high8_toNat _, p.info_toNat⟩,
    ⟨?status, x.bindingView_toNat, x.controlView_toNat, lowWord_toNat _, high6_toNat _, rfl, rfl, lowWord_toNat _,
      lowWord_toNat _, lowWord_toNat _, lowWord_toNat _⟩,
    fun h => ?length, fun h k hk => ?empty, fun r rest h => ?head, ?ustatus, lowWord_toNat _, ?position, rfl, ?lockView,
    low16_toNat _, high8_toNat _, low16_toNat _, high8_toNat _⟩
  case dbl =>
    change (d.dirBase.extractLsb' 0 9 ++ 0#7).toNat = _
    rw [append_toNat, field_toNat]
    simp only [BitVec.toNat_ofNat, Nat.zero_mod]
    omega
  case dbh =>
    have := d.dirBase.isLt
    change (0#8 ++ d.dirBase.extractLsb' 9 8).toNat = _
    rw [append_toNat, field_toNat]
    simp only [BitVec.toNat_ofNat, Nat.zero_mod]
    omega
  case opened =>
    change ((bit (d.state == .opened)).setWidth 16).toNat = _
    cases d.state <;> rfl
  case status =>
    change x.statusView.toNat = _
    rw [x.statusView_toNat, hstate, hphase, hcode, hcompletion]
  case length =>
    change s.queue.length % 2 ^ 16 = _
    omega
  case empty =>
    have hview (f : FaultRecord → Word) : (s.headView f).toNat = 0 := by rw [headView_nil h]; rfl
    simp only [List.mem_cons, List.not_mem_nil, or_false] at hk
    rcases hk with rfl | rfl | rfl | rfl | rfl | rfl <;> exact hview _
  case head =>
    have hview (f : FaultRecord → Word) : (s.headView f).toNat = (f r).toNat := by rw [headView_cons h]
    refine ⟨(hview _).trans ?_, (hview _).trans r.channelView_toNat, (hview _).trans (low16_toNat _),
      (hview _).trans (top6_toNat _), (hview _).trans (low16_toNat _), (hview _).trans (top6_toNat _)⟩
    rw [r.kindView_toNat, hkind, haccess, hphase]
  case ustatus =>
    change u.statusView.toNat = _
    rw [u.statusView_toNat, hmode, hcause, hfault, hphase]
  case position =>
    change (high8 (physicalOf u.u.position)).toNat = _
    have := u.u.position.isLt
    unfold physicalOf
    rw [high8_toNat, field_toNat]
    omega
  case lockView =>
    change u.lock.view.toNat = _
    rw [u.lock.view_toNat, hlock]

end Sys2Proof.Machine
end

section
/-! SUPPORT. The commands of the domain table and of the translation cache, case by case, and the proofs of
`Obligations.CommandsTakenOrRefused`, `Obligations.DomOpenOpensDomCloseCloses`, `Obligations.DomainAndProbeRefusals`,
`Obligations.InvDomainAndPageInvalidate` and `Obligations.ProbeAnswersOrAsks`. -/

namespace Sys2Proof.Machine

/-! ### Taken and refused (R176, R177) -/

/-- A command row that is taken is its effect on the state that has latched the command, with the result recorded. -/
theorem exec_taken {i : Instr} {s t : State} {code : Byte} {f : Effect} {r : Result}
    (hrow : exec i s = .next (s.unlessReset (s.command code f))) (hs : s.TakesCommands)
    (h : f s.window.args (s.latch code) = (t, r)) : exec i s = .next (t.setRes r) := by
  rw [hrow, command_taken hs, h]

/-- A code that names no command reaches no block. -/
theorem effectOf_unnamed {code : Byte} (h : namesCommand code = false) : effectOf code = fun _ s => (s, .badCommand) := by
  simp only [namesCommand, Bool.and_eq_false_iff, decide_eq_false_iff_not] at h
  unfold effectOf
  split
  case h_16 => rfl
  all_goals omega

/-- Settles O13: the effect of such a code is its result; and a refused command sets REFUSED alone. -/
theorem commandsTakenOrRefused : Obligations.CommandsTakenOrRefused := by
  refine ⟨fun v s hs hv => ?_, fun v s hrun hb => ?_⟩
  · have hcode : namesCommand (lowByte v) = false := by simpa [Instr.wellFormed, lowByte] using hv
    exact exec_taken (t := s.latch (lowByte v)) (f := effectOf (lowByte v)) rfl hs (by rw [effectOf_unnamed hcode])
  · rw [exec_of_asWrite (rowOfCommand_asWrite v) s]
    exact congrArg Host.Outcome.next (command_refused hrun hb _ _)

/-! ### DOM_OPEN (R10, R11) -/

section DomOpen

variable {a : Args} {s : State} {d : DomainId}

theorem domOpen_notNormal (h : s.urgent.mode ≠ .normal) : domOpen a s = (s, .engineUnavailable) := if_pos h

theorem domOpen_noDomain (hm : s.urgent.mode = .normal) (ha : a.domain = none) : domOpen a s = (s, .badDomain) := by
  unfold domOpen
  rw [if_neg (not_not.mpr hm), ha]

theorem domOpen_opened (hm : s.urgent.mode = .normal) (ha : a.domain = some d) (hd : s.domains[d].state = .opened) :
    domOpen a s = (s, .badState) := by
  unfold domOpen
  rw [if_neg (not_not.mpr hm), ha]
  exact if_pos (by rw [hd]; nofun)

theorem domOpen_untracked (hm : s.urgent.mode = .normal) (ha : a.domain = some d) (hd : s.domains[d].state = .closed)
    (hu : s.domains[d].trackUsed = false) (hw : s.domains[d].trackWritten = true) : domOpen a s = (s, .badArgument) := by
  unfold domOpen
  rw [if_neg (not_not.mpr hm), ha]
  exact (if_neg (not_not.mpr hd)).trans (if_pos ⟨hw, by rw [hu]; nofun⟩)

theorem domOpen_opens (hm : s.urgent.mode = .normal) (ha : a.domain = some d) (hd : s.domains[d].state = .closed)
    (ht : ¬ (s.domains[d].trackUsed = false ∧ s.domains[d].trackWritten = true)) :
    domOpen a s = (s.setDomain d { s.domains[d] with state := .opened }, .ok) := by
  unfold domOpen
  rw [if_neg (not_not.mpr hm), ha]
  exact (if_neg (not_not.mpr hd)).trans (if_neg fun h => ht ⟨Bool.eq_false_iff.mpr h.2, h.1⟩)

end DomOpen

/-! ### DOM_CLOSE (R10, R12, R13) -/

section DomClose

variable {a : Args} {s : State} {d : DomainId}

theorem domainBusy_iff : s.domainBusy d = true ↔
    ∃ c : ChannelId, s.channels[c].domain = d ∧ s.channels[c].state ≠ .idle ∧ s.channels[c].state ≠ .done := by
  simp only [State.domainBusy, List.any_eq_true, allChannels_mem, true_and, Bool.and_eq_true, beq_iff_eq, bne_iff_ne, and_assoc]

theorem domClose_notNormal (h : s.urgent.mode ≠ .normal) : domClose a s = (s, .engineUnavailable) := if_pos h

theorem domClose_noDomain (hm : s.urgent.mode = .normal) (ha : a.domain = none) : domClose a s = (s, .badDomain) := by
  unfold domClose
  rw [if_neg (not_not.mpr hm), ha]

theorem domClose_closed (hm : s.urgent.mode = .normal) (ha : a.domain = some d) (hd : s.domains[d].state = .closed) :
    domClose a s = (s, .badState) := by
  unfold domClose
  rw [if_neg (not_not.mpr hm), ha]
  exact if_pos (by rw [hd]; nofun)

theorem domClose_busy (hm : s.urgent.mode = .normal) (ha : a.domain = some d) (hd : s.domains[d].state = .opened)
    (hb : s.domainBusy d = true) : domClose a s = (s, .domainBusy) := by
  unfold domClose
  rw [if_neg (not_not.mpr hm), ha]
  exact (if_neg (not_not.mpr hd)).trans (if_pos hb)

theorem domClose_closes (hm : s.urgent.mode = .normal) (ha : a.domain = some d) (hd : s.domains[d].state = .opened)
    (hb : s.domainBusy d = false) :
    domClose a s = ((s.invalidateDomain d).setDomain d { s.domains[d] with state := .closed }, .ok) := by
  unfold domClose
  rw [if_neg (not_not.mpr hm), ha]
  exact (if_neg (not_not.mpr hd)).trans (if_neg (by rw [hb]; nofun))

end DomClose

/-- The entries that INV_DOMAIN invalidates (R48). -/
theorem invalidateDomain_invalidated (s : State) (d : DomainId) :
    Invalidated s (s.invalidateDomain d) (fun _ e => e.valid && e.domain == d) := by
  intro i w
  rw [invalidateDomain_eq]
  exact invalidate_getElem s _ i w

theorem invalidateDomain_walker (s : State) (d : DomainId) :
    (s.invalidateDomain d).walker = { s.walker with
      stale := s.walker.stale || (s.walker.state != .idle && s.walker.request.domain == d) } :=
  congrArg State.walker (invalidateDomain_eq s d)

/-- The frame of the effect: nothing but the cache and the walker changes. -/
theorem invalidateDomain_frame (s : State) (d : DomainId) :
    s.invalidateDomain d = { s with
      cache := (s.invalidateDomain d).cache, walker := (s.invalidateDomain d).walker } := by
  rw [invalidateDomain_eq]

/-- Settles O14: with every check passed the commands are their effects. -/
theorem domOpenOpensDomCloseCloses : Obligations.DomOpenOpensDomCloseCloses := by
  intro hi s d hs hm harg
  have ha : s.window.args.domain = some d := domain_of_arg harg
  refine ⟨fun hd ht => ?opens, fun hd hfree => ?closes⟩
  case opens => exact exec_taken (s := s) rfl hs (domOpen_opens (s := s.latch 0x01) hm ha hd ht)
  case closes =>
    have hbusy : s.domainBusy d = false := by
      rw [Bool.eq_false_iff, Ne, domainBusy_iff]
      rintro ⟨c, hc, hidle, hdone⟩
      exact (hfree c hc).elim hidle hdone
    refine ⟨_, exec_taken (s := s) rfl hs (domClose_closes (s := s.latch 0x02) hm ha hd hbusy), ?_, ?_, ?_, ?_⟩
    · rw [invalidateDomain_eq]
      rfl
    · exact invalidateDomain_invalidated (s.latch 0x02) d
    · exact invalidateDomain_walker (s.latch 0x02) d
    · rw [invalidateDomain_eq]
      rfl

/-! ### INV_DOMAIN and INV_PAGE (R46, R48, R49) -/

theorem invDomain_some {a : Args} {d : DomainId} (ha : a.domain = some d) (s : State) :
    invDomain a s = (s.invalidateDomain d, .ok) := by
  unfold invDomain
  rw [ha]

theorem invDomain_none {a : Args} (ha : a.domain = none) (s : State) : invDomain a s = (s, .badDomain) := by
  unfold invDomain
  rw [ha]

theorem invPage_some {a : Args} {d : DomainId} (ha : a.domain = some d) (hv : a.vaddrOk = true) (s : State) :
    invPage a s = (s.invalidatePage d a.vaddr, .ok) := by
  unfold invPage
  rw [ha]
  exact if_pos hv

theorem invPage_badAddress {a : Args} {d : DomainId} (ha : a.domain = some d) (hv : a.vaddrOk = false) (s : State) :
    invPage a s = (s, .badArgument) := by
  unfold invPage
  rw [ha]
  exact if_neg (by rw [hv]; nofun)

theorem invPage_none {a : Args} (ha : a.domain = none) (s : State) : invPage a s = (s, .badDomain) := by
  unfold invPage
  rw [ha]

theorem vaddrOk_false {a : Args} (h : 64 ≤ a.arg2.toNat) : a.vaddrOk = false := by
  rw [Bool.eq_false_iff, Ne, vaddrOk_iff]
  omega

/-- The address of ARG1 and ARG2 (R46). -/
theorem vaddr_of_arg {a : Args} {v : VAddr} (h : a.arg2.toNat < 64) (hv : v.toNat = a.arg2.toNat * 65536 + a.arg1.toNat) :
    a.vaddr = v := by
  apply BitVec.eq_of_toNat_eq
  rw [vaddr_toNat, hv, Nat.mod_eq_of_lt h]

/-- The effect of INV_PAGE field by field (R49, R51). -/
theorem invalidatePage_eq (s : State) (d : DomainId) (v : VAddr) :
    s.invalidatePage d v = { s with
      cache := s.cache.set (setOf (vpnOf v)) (invalidateSet s.cache[setOf (vpnOf v)] (fun e => e.hits d (vpnOf v)))
      walker := { s.walker with stale := s.walker.stale || (s.walker.state != .idle
        && (s.walker.request.domain == d && vpnOf s.walker.request.vaddr == vpnOf v)) } } := by
  unfold State.invalidatePage
  dsimp only
  rw [markStale_eq]
  rfl

/-- The entries that INV_PAGE invalidates: those of the page, in its set (R49). -/
theorem invalidatePage_invalidated (s : State) (d : DomainId) (v : VAddr) :
    Invalidated s (s.invalidatePage d v)
      (fun i e => i == setOf (vpnOf v) && (e.valid && e.domain == d && e.vpn == vpnOf v)) := by
  intro i w
  rw [invalidatePage_eq]
  dsimp only
  rw [set_getElem]
  by_cases h : i = setOf (vpnOf v)
  · subst h
    rw [if_pos rfl, invalidateSet_getElem]
    simp only [beq_self_eq_true, Bool.true_and]
    rfl
  · rw [if_neg h, if_neg (by simp [h])]

/-- Settles O20: the effects are on the cache and the stale mark alone. -/
theorem invDomainAndPageInvalidate : Obligations.InvDomainAndPageInvalidate := by
  intro hi s hs
  refine ⟨fun d harg => ⟨?domain, fun hpage v hv => ?page, fun hlarge => ?badAddress⟩, fun hlarge => ⟨?noDomain, ?noPage⟩⟩
  case domain =>
    refine ⟨_, exec_taken (s := s) rfl hs (invDomain_some (domain_of_arg harg) _), ?_, ?_, ?_⟩
    · exact invalidateDomain_invalidated (s.latch 0x04) d
    · exact invalidateDomain_walker (s.latch 0x04) d
    · exact congrArg (State.setRes · .ok) (invalidateDomain_frame (s.latch 0x04) d)
  case page =>
    have hvaddr : s.window.args.vaddr = v := vaddr_of_arg hpage hv
    refine ⟨_, exec_taken (s := s) rfl hs (invPage_some (domain_of_arg harg) ((vaddrOk_iff _).mpr hpage) _), ?_⟩
    rw [hvaddr]
    refine ⟨invalidatePage_invalidated (s.latch 0x05) d v, ?_, ?_⟩
    · rw [invalidatePage_eq]
      rfl
    · rw [invalidatePage_eq]
      rfl
  case badAddress =>
    exact exec_taken (s := s) rfl hs (invPage_badAddress (domain_of_arg harg) (vaddrOk_false hlarge) _)
  case noDomain => exact exec_taken (s := s) rfl hs (invDomain_none (domain_of_large hlarge) _)
  case noPage => exact exec_taken (s := s) rfl hs (invPage_none (domain_of_large hlarge) _)

/-! ### PROBE (R55 to R57) -/

section Probe

variable {a : Args} {s : State} {d : DomainId}

theorem probe_notNormal (h : s.urgent.mode ≠ .normal) : probe a s = (s, .engineUnavailable) := if_pos h

theorem probe_noDomain (hm : s.urgent.mode = .normal) (ha : a.domain = none) : probe a s = (s, .badDomain) := by
  unfold probe
  rw [if_neg (not_not.mpr hm), ha]

theorem probe_badArgument (hm : s.urgent.mode = .normal) (ha : a.domain = some d)
    (hbad : a.vaddrOk = false ∨ a.probeAccess = none) : probe a s = (s, .badArgument) := by
  unfold probe
  rw [if_neg (not_not.mpr hm), ha]
  rcases hbad with h | h
  · simp only [h]
  · cases hv : a.vaddrOk <;> simp only [h]

theorem probe_closed {m : MemAccess} (hm : s.urgent.mode = .normal) (ha : a.domain = some d) (hv : a.vaddrOk = true)
    (hp : a.probeAccess = some m) (hd : s.domains[d].state = .closed) : probe a s = (s, .badState) := by
  unfold probe
  rw [if_neg (not_not.mpr hm), ha]
  simp only [hv, hp]
  exact if_pos (by rw [hd]; nofun)

theorem probe_lookup {m : MemAccess} (hm : s.urgent.mode = .normal) (ha : a.domain = some d) (hv : a.vaddrOk = true)
    (hp : a.probeAccess = some m) (hd : s.domains[d].state = .opened) :
    probe a s = (s.probeLookup d a.vaddr m, .ok) := by
  unfold probe
  rw [if_neg (not_not.mpr hm), ha]
  simp only [hv, hp]
  exact if_neg (not_not.mpr hd)

end Probe

/-- The access code of ARG3 (R55). -/
def MemAccess.code : MemAccess → Nat
  | .read => 0
  | .write => 1
  | .fetch => 2
  | .writeback => 3

theorem probeAccess_of_arg {a : Args} (m : MemAccess) (h : a.arg3.toNat = m.code) : a.probeAccess = some m := by
  unfold Args.probeAccess
  cases m <;> rw [h] <;> rfl

theorem probeAccess_of_small {a : Args} (h : a.arg3.toNat < 4) : ∃ m, a.probeAccess = some m := by
  have h4 : a.arg3.toNat = 0 ∨ a.arg3.toNat = 1 ∨ a.arg3.toNat = 2 ∨ a.arg3.toNat = 3 := by omega
  rcases h4 with h | h | h | h
  · exact ⟨.read, probeAccess_of_arg .read h⟩
  · exact ⟨.write, probeAccess_of_arg .write h⟩
  · exact ⟨.fetch, probeAccess_of_arg .fetch h⟩
  · exact ⟨.writeback, probeAccess_of_arg .writeback h⟩

theorem probeAccess_of_large {a : Args} (h : 4 ≤ a.arg3.toNat) : a.probeAccess = none := by
  unfold Args.probeAccess
  split
  case h_5 => rfl
  all_goals omega

/-- Settles O15: the first check that fails gives the result, and the state stands. -/
theorem domainAndProbeRefusals : Obligations.DomainAndProbeRefusals := by
  intro hi s hs
  refine ⟨fun hm => ⟨?_, ?_, ?_⟩, fun hm hlarge => ?_, fun d hm harg => ?_⟩
  · exact exec_taken (s := s) rfl hs (domOpen_notNormal (s := s.latch 0x01) hm)
  · exact exec_taken (s := s) rfl hs (domClose_notNormal (s := s.latch 0x02) hm)
  · exact exec_taken (s := s) rfl hs (probe_notNormal (s := s.latch 0x06) hm)
  · have ha := domain_of_large hlarge
    exact ⟨exec_taken (s := s) rfl hs (domOpen_noDomain (s := s.latch 0x01) hm ha),
      exec_taken (s := s) rfl hs (domClose_noDomain (s := s.latch 0x02) hm ha),
      exec_taken (s := s) rfl hs (probe_noDomain (s := s.latch 0x06) hm ha)⟩
  · have ha := domain_of_arg harg
    refine ⟨fun hd => ?_, fun hd => ?_, fun hd hu hw => ?_, fun hd hc => ?_, fun hbad => ?_, fun h2 h3 hd => ?_⟩
    · exact exec_taken (s := s) rfl hs (domOpen_opened (s := s.latch 0x01) hm ha hd)
    · exact exec_taken (s := s) rfl hs (domClose_closed (s := s.latch 0x02) hm ha hd)
    · exact exec_taken (s := s) rfl hs (domOpen_untracked (s := s.latch 0x01) hm ha hd hu hw)
    · exact exec_taken (s := s) rfl hs (domClose_busy (s := s.latch 0x02) hm ha hd (domainBusy_iff.mpr hc))
    · exact exec_taken (s := s) rfl hs
        (probe_badArgument (s := s.latch 0x06) hm ha (hbad.imp vaddrOk_false probeAccess_of_large))
    · obtain ⟨m, hp⟩ := probeAccess_of_small h3
      exact exec_taken (s := s) rfl hs (probe_closed (s := s.latch 0x06) hm ha ((vaddrOk_iff _).mpr h2) hp hd)

/-- A probe's answer from the entry that it hits, with the refusal of a write said in words (R56). -/
theorem hitAnswer_eq (e : CacheEntry) (v : VAddr) (a : MemAccess) :
    hitAnswer e v a = if (a = .write ∨ a = .writeback) ∧ e.writable = false then
        { outcome := .writeDenied, address := 0, hit := true, writable := false, writtenKnown := e.writtenKnown }
      else
        { outcome := .translated, address := e.frame ++ v.extractLsb' 0 11, hit := true, writable := e.writable,
          writtenKnown := e.writtenKnown } := by
  have h : (a.writes && !e.writable) = true ↔ (a = .write ∨ a = .writeback) ∧ e.writable = false := by
    cases a <;> simp [MemAccess.writes]
  exact if_congr h rfl rfl

/-- Settles O21: the lookup of the probe answers at once, or leaves the request with the walker. -/
theorem probeAnswersOrAsks : Obligations.ProbeAnswersOrAsks := by
  intro hi s d v a hs hm harg hpage hv hcode hd
  have hbusy : s.window.busy = false := hs.2.1
  have hvaddr : s.window.args.vaddr = v := vaddr_of_arg hpage hv
  have hrow := exec_taken (i := .probe hi) (s := s) rfl hs (probe_lookup (s := s.latch 0x06) hm (domain_of_arg harg)
    ((vaddrOk_iff _).mpr hpage) (probeAccess_of_arg a hcode) hd)
  rw [hrow, hvaddr]
  unfold State.probeLookup
  refine ⟨fun w hw => ?hit, fun hw => ?miss⟩
  case hit =>
    simp only [State.latch_cache, hw, hitAnswer_eq]
    simp only [State.answerProbe, State.setRes, State.latch, State.recorded, hbusy]
  case miss =>
    simp only [State.latch_cache, hw]
    rfl

end Sys2Proof.Machine
end

section
/-! SUPPORT. The writes of domain fields and of bases, case by case, and the proofs of
`Obligations.DomainFieldWritesReplace` and `Obligations.BaseWritesApplyInNormal`. -/

namespace Sys2Proof.Machine

/-! ### Domain fields (R6, R7) -/

/-- What the register of a field shows of a record (R6). -/
def DomainRecord.view (r : DomainRecord) : DomainField → Word
  | .dbl => r.dirBase.extractLsb' 0 9 ++ 0#7
  | .dbh => 0#8 ++ r.dirBase.extractLsb' 9 8
  | .plim => r.pageLimit.setWidth 16
  | .dflag => r.flagsView

/-- The bits of a written value that a field takes (R7). -/
def fieldMask : DomainField → Word
  | .dbl => 0xFF80#16
  | .dbh => 0x00FF#16
  | .plim => 0x07FF#16
  | .dflag => 0x0007#16

theorem readReg_field (s : State) (g : DomainField) : s.readReg g.reg = s.domains[s.window.tselDomain].view g := by
  cases g <;> rfl

theorem DomainRecord.write_state (r : DomainRecord) (f : DomainField) (v : Word) : (r.write f v).state = r.state := by
  cases f <;> rfl

/-- A written field reads back its bits of the value. -/
theorem DomainRecord.view_write_same (r : DomainRecord) (f : DomainField) (v : Word) :
    (r.write f v).view f = v &&& fieldMask f := by
  cases f <;> apply BitVec.eq_of_getLsbD_eq <;> intro i hi
  case plim => exact congrArg (BitVec.getLsbD · i) (low_masked v 11 0x07FF#16 rfl)
  all_goals
    simp only [DomainRecord.write, DomainRecord.view, DomainRecord.flagsView, fieldMask, bit, BitVec.getLsbD_append,
      BitVec.getLsbD_extractLsb', BitVec.getLsbD_and, BitVec.getLsbD_ofBool]
    interval_cases i <;> simp

/-- The other fields show what they showed. -/
theorem DomainRecord.view_write_ne (r : DomainRecord) {f g : DomainField} (h : g ≠ f) (v : Word) :
    (r.write f v).view g = r.view g := by
  cases f <;> cases g
  case dbl.dbl | dbh.dbh | plim.plim | dflag.dflag => exact absurd rfl h
  case dbl.dbh | dbh.dbl =>
    apply BitVec.eq_of_toNat_eq
    simp only [DomainRecord.write, DomainRecord.view, append_toNat, field_toNat, BitVec.toNat_ofNat, Nat.zero_mod]
    omega
  all_goals rfl

/-- The directory base after a write of its low or its high bits, as a number (R7). -/
theorem DomainRecord.write_dirBase (r : DomainRecord) (v : Word) :
    (r.write .dbl v).dirBase.toNat = r.dirBase.toNat / 512 * 512 + v.toNat / 128
    ∧ (r.write .dbh v).dirBase.toNat = v.toNat % 256 * 512 + r.dirBase.toNat % 512 := by
  have hv := v.isLt
  have hr := r.dirBase.isLt
  simp only [DomainRecord.write, append_toNat, field_toNat]
  omega

theorem writeField_closed {s : State} (h : s.domains[s.window.tselDomain].state = .closed) (f : DomainField) (v : Word) :
    s.writeField f v = s.setDomain s.window.tselDomain (s.domains[s.window.tselDomain].write f v) := by
  unfold State.writeField
  simp only [h]

theorem writeField_opened {s : State} (h : s.domains[s.window.tselDomain].state = .opened) (f : DomainField) (v : Word) :
    s.writeField f v = s.lockTable := by
  unfold State.writeField
  simp only [h]

theorem setDomain_self (s : State) (d : DomainId) (r : DomainRecord) : (s.setDomain d r).domains[d] = r := by
  rw [State.setDomain_domains, set_getElem, if_pos rfl]

/-- Settles O16: the record of a CLOSED domain is the one written, and each register shows its field of it. -/
theorem domainFieldWritesReplace : Obligations.DomainFieldWritesReplace := by
  intro f v s hrun r
  have hrow : exec (.domainFieldWrite f v) s = .next (s.writeField f v) :=
    congrArg Host.Outcome.next (unlessReset_running hrun)
  refine ⟨fun hd => ?closed, fun hd => ?opened⟩
  case opened => rw [hrow, writeField_opened hd]; rfl
  case closed =>
    have hself : (s.setDomain s.window.tselDomain (r.write f v)).domains[s.window.tselDomain] = r.write f v :=
      setDomain_self s _ _
    have hview (g : DomainField) : (s.setDomain s.window.tselDomain (r.write f v)).readReg g.reg = (r.write f v).view g := by
      rw [readReg_field]
      exact congrArg (DomainRecord.view · g) hself
    refine ⟨_, hrow.trans (congrArg Host.Outcome.next (writeField_closed hd f v)), ?record, ?same, fun g hg => ?other, ?state,
      ?frame⟩
    case record =>
      rw [hself]
      obtain ⟨hlow, hhigh⟩ := r.write_dirBase v
      cases f
      case dbl => exact ⟨hlow, rfl⟩
      case dbh => exact ⟨hhigh, rfl⟩
      case plim => exact ⟨(field_toNat v 0 11).trans (by omega), rfl⟩
      case dflag => rfl
    case same =>
      rw [hview, DomainRecord.view_write_same]
      cases f <;> rfl
    case other => rw [hview, DomainRecord.view_write_ne r hg, readReg_field]
    case state =>
      have hstate : (s.setDomain s.window.tselDomain (r.write f v)).domains[s.window.tselDomain].state = r.state := by
        rw [hself, DomainRecord.write_state]
      exact congrArg (fun st => (bit (st == .opened)).setWidth 16) hstate
    case frame =>
      rw [hself]
      rfl

/-! ### Bases (R153, R154) -/

/-- The check of a written save base, with the numbers of its two words (R153). -/
theorem relocationOk_written (v staging : Word) :
    relocationOk (v ++ staging : Long) = true ↔ v.toNat < 256 ∧ staging.toNat % 0x200 = 0 := by
  have hv := v.isLt
  have hs := staging.isLt
  unfold relocationOk
  rw [Bool.and_eq_true, beq_iff_eq, decide_eq_true_eq, append_toNat]
  change _ ∧ _ ≤ 0xFFFE00 ↔ _
  omega

theorem writeSaveHigh_applied {s : State} {v : Word} (hm : s.urgent.mode = .normal) (hv : v.toNat < 256)
    (hs : s.urgent.saveStaging.toNat % 0x200 = 0) :
    s.writeSaveHigh v = { s with urgent := { s.urgent with saveBase := physicalOf (v ++ s.urgent.saveStaging) } } :=
  if_pos ⟨hm, (relocationOk_written _ _).mpr ⟨hv, hs⟩⟩

theorem writeSaveHigh_refused {s : State} {v : Word}
    (h : ¬ (s.urgent.mode = .normal ∧ v.toNat < 256 ∧ s.urgent.saveStaging.toNat % 0x200 = 0)) :
    s.writeSaveHigh v = s.lockTable :=
  if_neg fun k => h ⟨k.1, (relocationOk_written _ _).mp k.2⟩

/-- Settles O58: each write is its staging or its base in NORMAL, and TABLE_LOCKED otherwise. -/
theorem baseWritesApplyInNormal : Obligations.BaseWritesApplyInNormal := by
  intro v s hrun locked
  have row (t : State) : Host.Outcome.next (ρ := Refusal) (φ := Fault) (s.unlessReset t) = .next t :=
    congrArg Host.Outcome.next (unlessReset_running hrun)
  refine ⟨fun hm => ⟨?_, ?_, ?_, fun hv hs => ?applied, fun hbad => ?refused⟩, fun hm => ⟨?_, ?_, ?_, ?_⟩⟩
  · exact (row _).trans (congrArg Host.Outcome.next (if_pos hm))
  · exact (row _).trans (congrArg Host.Outcome.next (if_pos hm))
  · exact (row _).trans (congrArg Host.Outcome.next (if_pos hm))
  case applied =>
    refine ⟨_, (row _).trans (congrArg Host.Outcome.next (writeSaveHigh_applied hm hv hs)), ?_, rfl⟩
    have hstaging := s.urgent.saveStaging.isLt
    change (physicalOf (v ++ s.urgent.saveStaging)).toNat = _
    unfold physicalOf
    rw [field_toNat, append_toNat]
    omega
  case refused =>
    refine (row _).trans (congrArg Host.Outcome.next (writeSaveHigh_refused ?_))
    omega
  · exact (row _).trans (congrArg Host.Outcome.next (if_neg hm))
  · exact (row _).trans (congrArg Host.Outcome.next (writeSaveHigh_refused fun h => hm h.1))
  · exact (row _).trans (congrArg Host.Outcome.next (if_neg hm))
  · exact (row _).trans (congrArg Host.Outcome.next (if_neg hm))

end Sys2Proof.Machine
end

section
/-! SUPPORT. The channel commands and LOCK_CLEAR, case by case, and the proofs of `Obligations.ChStartStarts`,
`Obligations.ChHaltHaltsChContinueReadies`, `Obligations.ChSkipSkips`, `Obligations.ChAbortAborts`,
`Obligations.ChannelCommandRefusals` and `Obligations.LockClearSweepsChannels`. -/

namespace Sys2Proof.Machine

/-- The checks that every channel command makes before its own are passed (R86). -/
theorem onChannel_some {f : ChannelId → Channel → Effect} {a : Args} {s : State} {c : ChannelId}
    (hm : s.urgent.mode = .normal) (ha : a.channel = some c) : onChannel f a s = f c s.channels[c] a s := by
  unfold onChannel
  rw [if_neg (not_not.mpr hm), ha]

theorem onChannel_notNormal {f : ChannelId → Channel → Effect} {a : Args} {s : State} (h : s.urgent.mode ≠ .normal) :
    onChannel f a s = (s, .engineUnavailable) := if_pos h

theorem onChannel_none {f : ChannelId → Channel → Effect} {a : Args} {s : State} (hm : s.urgent.mode = .normal)
    (ha : a.channel = none) : onChannel f a s = (s, .badChannel) := by
  unfold onChannel
  rw [if_neg (not_not.mpr hm), ha]

/-! ### Done flags (R73, R180) -/

theorem doneFlag_markDone (s : State) (c n : ChannelId) (k : Byte) :
    (s.markDone c k).doneFlag n = (s.doneFlag n || (n == c && (k.getLsbD 4 || k.getLsbD 3))) := by
  have hmarks : marksDone k = (k.getLsbD 4 || k.getLsbD 3) := rfl
  unfold State.markDone
  rw [← hmarks]
  cases marksDone k
  · simp only [Bool.and_false, Bool.or_false]
    rfl
  · rw [Bool.and_true]
    exact getLsbD_or_doneMask s.window.done c n

theorem markDone_frame (s : State) (c : ChannelId) (k : Byte) :
    s.markDone c k = { s with window := { s.window with done := (s.markDone c k).window.done } } := by
  unfold State.markDone
  split <;> rfl

/-! ### CH_START (R87, R88) -/

section ChStart

variable {a : Args} {s : State} {c : ChannelId} (hm : s.urgent.mode = .normal) (ha : a.channel = some c)

include hm ha

theorem chStart_badState (hidle : s.channels[c].state ≠ .idle) (hdone : s.channels[c].state ≠ .done) :
    chStart a s = (s, .badState) :=
  (onChannel_some hm ha).trans (if_pos ⟨hidle, hdone⟩)

variable (hst : s.channels[c].state = .idle ∨ s.channels[c].state = .done)

include hst

theorem chStart_badDomain (h : a.startDomain = none) : chStart a s = (s, .badDomain) := by
  refine (onChannel_some hm ha).trans ((if_neg fun k => hst.elim k.1 k.2).trans ?_)
  rw [h]

variable {d : DomainId} (hd : a.startDomain = some d)

include hd

theorem chStart_badArgument (h : a.startOk = false) : chStart a s = (s, .badArgument) := by
  refine (onChannel_some hm ha).trans ((if_neg fun k => hst.elim k.1 k.2).trans ?_)
  simp only [hd, h]

variable {l : Option (Fin 8)} (hok : a.startOk = true) (hl : a.startLine = some l)

include hok hl

theorem chStart_closed (h : s.domains[d].state = .closed) : chStart a s = (s, .badState) := by
  refine (onChannel_some hm ha).trans ((if_neg fun k => hst.elim k.1 k.2).trans ?_)
  simp only [hd, hok, hl]
  exact if_pos (by rw [h]; nofun)

theorem chStart_starts (h : s.domains[d].state = .opened) :
    chStart a s = ((s.setChannel c (s.channels[c].start d l a)).clearDone (doneMask c), .ok) := by
  refine (onChannel_some hm ha).trans ((if_neg fun k => hst.elim k.1 k.2).trans ?_)
  simp only [hd, hok, hl]
  exact if_neg (not_not.mpr h)

end ChStart

/-- The binding that CH_START takes from its arguments, as numbers (R87). -/
theorem start_binding (x : Channel) (d : DomainId) (l : Option (Fin 8)) (a : Args) (hburst : a.arg3.toNat / 256 ≤ 16) :
    (x.start d l a).priority.val = a.arg1.toNat / 256 % 4 ∧ (x.start d l a).burst.toNat = a.arg3.toNat / 256
    ∧ (x.start d l a).descriptor.toNat = a.arg3.toNat % 64 * 65536 + a.arg2.toNat := by
  have h2 := a.arg2.isLt
  have h3 := a.arg3.isLt
  refine ⟨?_, ?_, ?_⟩
  · change (a.arg1.extractLsb' 8 2).toNat % 4 = _
    rw [field_toNat]
    omega
  · change ((a.arg3.extractLsb' 8 8).extractLsb' 0 5).toNat = _
    rw [field_toNat, field_toNat]
    omega
  · change ((a.arg3.extractLsb' 0 6 ++ a.arg2).setWidth 32).toNat = _
    rw [BitVec.toNat_setWidth, append_toNat, field_toNat]
    omega

theorem setChannel_self (s : State) (c : ChannelId) (x : Channel) : (s.setChannel c x).channels[c] = x := by
  rw [State.setChannel_channels, set_getElem, if_pos rfl]

theorem startLine_of_startOk {a : Args} (h : a.startOk = true) : ∃ l, a.startLine = some l := by
  simp only [Args.startOk, Bool.and_eq_true] at h
  obtain ⟨⟨⟨⟨⟨-, hline⟩, -⟩, -⟩, -⟩, -⟩ := h
  exact Option.isSome_iff_exists.mp hline

/-- Settles O31: with every check passed the command writes the started context and clears the done flag. -/
theorem chStartStarts : Obligations.ChStartStarts := by
  intro hi s c d line hs hst hdomain hzero hline hburst hburst' hzero' haddr hopen
  have hok : s.window.args.startOk = true := by
    rw [startOk_iff]
    refine ⟨hzero, ?_, hburst, hburst', hzero', haddr⟩
    cases line <;> simp only at hline <;> omega
  have hl : s.window.args.startLine = some line := lineOfCode_eq _ line hline
  have hrow := exec_taken (i := .chStart hi) (s := s) rfl hs.1
    (chStart_starts (s := s.latch 0x07) hs.2.1 (channel_of_arg hs.2.2) hst (startDomain_of_arg hdomain) hok hl hopen)
  have hself := setChannel_self (s.latch 0x07) c ((s.latch 0x07).channels[c].start d line s.window.args)
  obtain ⟨hpriority, hbeats, hdescriptor⟩ := start_binding s.channels[c] d line s.window.args hburst'
  refine ⟨_, hrow, ?_⟩
  simp only [State.setRes_channels, State.clearDone_channels]
  rw [hself]
  exact ⟨rfl, rfl, rfl, hpriority, rfl, hbeats, hdescriptor, rfl, fun n => doneFlag_clearDone (s.latch 0x07) c n, rfl⟩

/-! ### The other channel commands (R89 to R93) -/

theorem Channel.advance_end {x : Channel} (h : x.control.getLsbD 3 = true) :
    x.advance = { x with state := .done, completion := .complete } := if_pos h

theorem Channel.advance_next {x : Channel} (h : x.control.getLsbD 3 = false) :
    x.advance = { x with state := .ready, phase := .fetch, descriptor := x.next } := if_neg (Bool.eq_false_iff.mp h)

section ChannelCommands

variable {a : Args} {s : State} {c : ChannelId} (hm : s.urgent.mode = .normal) (ha : a.channel = some c)

include hm ha

theorem chHalt_stops (h : s.channels[c].state = .ready ∨ s.channels[c].state = .waitReq) :
    chHalt a s = (s.setChannel c { s.channels[c] with state := .halted }, .ok) := by
  refine (onChannel_some hm ha).trans ?_
  rcases h with h | h <;> simp only [h]

theorem chHalt_pends (h : s.channels[c].state = .active) :
    chHalt a s = (s.setChannel c { s.channels[c] with pendingHalt := true }, .ok) := by
  refine (onChannel_some hm ha).trans ?_
  simp only [h]

theorem chHalt_badState (h : s.channels[c].state ∉ [.ready, .waitReq, .active]) : chHalt a s = (s, .badState) := by
  refine (onChannel_some hm ha).trans ?_
  split <;> simp_all

theorem chContinue_readies (h : s.channels[c].state = .halted ∨ s.channels[c].state = .faulted) :
    chContinue a s = (s.setChannel c { s.channels[c] with state := .ready }, .ok) := by
  refine (onChannel_some hm ha).trans ?_
  rcases h with h | h <;> simp only [h]

theorem chContinue_badState (h : s.channels[c].state ∉ [.halted, .faulted]) : chContinue a s = (s, .badState) := by
  refine (onChannel_some hm ha).trans ?_
  split <;> simp_all

theorem chSkip_abandons (h : s.channels[c].state = .halted ∨ s.channels[c].state = .faulted)
    (hphase : s.channels[c].phase = .move) :
    chSkip a s = (s.setChannel c { s.channels[c] with phase := .writeback, code := .skipped, state := .ready }, .ok) := by
  refine (onChannel_some hm ha).trans ?_
  rcases h with h | h <;> simp only [h, hphase]

theorem chSkip_advances (h : s.channels[c].state = .halted ∨ s.channels[c].state = .faulted)
    (hphase : s.channels[c].phase = .writeback) :
    chSkip a s = ((s.setChannel c s.channels[c].advance).markDone c s.channels[c].control, .ok) := by
  refine (onChannel_some hm ha).trans ?_
  rcases h with h | h <;> simp only [h, hphase]

theorem chSkip_fetch (hphase : s.channels[c].phase = .fetch) : chSkip a s = (s, .badState) := by
  refine (onChannel_some hm ha).trans ?_
  split <;> simp_all

theorem chSkip_badState (h : s.channels[c].state ∉ [.halted, .faulted]) : chSkip a s = (s, .badState) := by
  refine (onChannel_some hm ha).trans ?_
  split <;> simp_all

theorem chAbort_aborts (hidle : s.channels[c].state ≠ .idle) (hactive : s.channels[c].state ≠ .active) :
    chAbort a s = (s.setChannel c s.channels[c].abort, .ok) := by
  refine (onChannel_some hm ha).trans ?_
  split <;> simp_all

theorem chAbort_pends (h : s.channels[c].state = .active) :
    chAbort a s = (s.setChannel c { s.channels[c] with pendingAbort := true }, .ok) := by
  refine (onChannel_some hm ha).trans ?_
  simp only [h]

theorem chAbort_badState (h : s.channels[c].state = .idle) : chAbort a s = (s, .badState) := by
  refine (onChannel_some hm ha).trans ?_
  simp only [h]

end ChannelCommands

/-- Settles O32: each command writes one field of the channel. -/
theorem chHaltHaltsChContinueReadies : Obligations.ChHaltHaltsChContinueReadies := by
  rintro hi s c ⟨hs, hm, harg⟩
  have ha := channel_of_arg harg
  exact ⟨fun h => exec_taken (s := s) rfl hs (chHalt_stops (s := s.latch 0x08) hm ha h),
    fun h => exec_taken (s := s) rfl hs (chHalt_pends (s := s.latch 0x08) hm ha h),
    fun h => exec_taken (s := s) rfl hs (chContinue_readies (s := s.latch 0x09) hm ha h)⟩

/-- Settles O33: the command writes the channel, or advances it, by its phase. -/
theorem chSkipSkips : Obligations.ChSkipSkips := by
  rintro hi s c ⟨hs, hm, harg⟩ hst x
  have ha := channel_of_arg harg
  refine ⟨fun hphase => ?move, fun hphase => ?writeback, fun hphase => ?fetch⟩
  case move => exact exec_taken (s := s) rfl hs (chSkip_abandons (s := s.latch 0x0A) hm ha hst hphase)
  case fetch => exact exec_taken (s := s) rfl hs (chSkip_fetch (s := s.latch 0x0A) hm ha hphase)
  case writeback =>
    refine ⟨_, exec_taken (s := s) rfl hs (chSkip_advances (s := s.latch 0x0A) hm ha hst hphase), ?_⟩
    rw [markDone_frame]
    refine ⟨fun hend => ?_, fun hend => ?_, fun n => ?_, rfl⟩
    · exact congrArg (s.channels.set c) (Channel.advance_next hend)
    · exact congrArg (s.channels.set c) (Channel.advance_end hend)
    · exact doneFlag_markDone ((s.latch 0x0A).setChannel c x.advance) c n x.control

/-- Settles O34: the command aborts the channel, or sets its pending abort. -/
theorem chAbortAborts : Obligations.ChAbortAborts := by
  rintro hi s c ⟨hs, hm, harg⟩
  have ha := channel_of_arg harg
  exact ⟨fun hidle hactive => exec_taken (s := s) rfl hs (chAbort_aborts (s := s.latch 0x0B) hm ha hidle hactive),
    fun h => exec_taken (s := s) rfl hs (chAbort_pends (s := s.latch 0x0B) hm ha h)⟩

/-- A channel command that fails a check of R86. -/
theorem exec_channel_refused {i : Instr} {s : State} {code : Byte} {f : ChannelId → Channel → Effect}
    (hrow : exec i s = .next (s.unlessReset (s.command code (onChannel f)))) (hs : s.TakesCommands) :
    (s.urgent.mode ≠ .normal → exec i s = .next (s.recorded code .engineUnavailable))
    ∧ (s.urgent.mode = .normal → 8 ≤ s.window.args.arg0.toNat → exec i s = .next (s.recorded code .badChannel)) :=
  ⟨fun hm => exec_taken hrow hs (onChannel_notNormal (s := s.latch code) hm),
    fun hm h => exec_taken hrow hs (onChannel_none (s := s.latch code) hm (channel_of_large h))⟩

/-- Settles O35: the first check that fails gives the result, and the state stands. -/
theorem channelCommandRefusals : Obligations.ChannelCommandRefusals := by
  intro hi s hs commands
  refine ⟨fun k hk => ?common, ?own⟩
  case common =>
    simp only [commands, List.mem_cons, List.not_mem_nil, or_false] at hk
    rcases hk with rfl | rfl | rfl | rfl | rfl
    · exact exec_channel_refused (s := s) rfl hs
    · exact exec_channel_refused (s := s) rfl hs
    · exact exec_channel_refused (s := s) rfl hs
    · exact exec_channel_refused (s := s) rfl hs
    · exact exec_channel_refused (s := s) rfl hs
  case own =>
    rintro c ⟨-, hm, harg⟩ st
    have ha := channel_of_arg harg
    refine ⟨fun hidle hdone => ?_, fun h => ?_, fun h => ⟨?_, ?_⟩, fun h => ?_,
      fun hst => ⟨fun hlarge => ?_, fun d hdomain => ?_⟩⟩
    · exact exec_taken (s := s) rfl hs (chStart_badState (s := s.latch 0x07) hm ha hidle hdone)
    · exact exec_taken (s := s) rfl hs (chHalt_badState (s := s.latch 0x08) hm ha h)
    · exact exec_taken (s := s) rfl hs (chContinue_badState (s := s.latch 0x09) hm ha h)
    · exact exec_taken (s := s) rfl hs (chSkip_badState (s := s.latch 0x0A) hm ha h)
    · exact exec_taken (s := s) rfl hs (chAbort_badState (s := s.latch 0x0B) hm ha h)
    · exact exec_taken (s := s) rfl hs (chStart_badDomain (s := s.latch 0x07) hm ha hst (startDomain_of_large hlarge))
    · intro line burst bad
      have hd := startDomain_of_arg hdomain
      have hok : s.window.args.startOk = true ↔ ¬ bad := by
        rw [startOk_iff]
        omega
      refine ⟨fun hbad => ?_, fun hgood hclosed => ?_⟩
      · refine exec_taken (s := s) rfl hs (chStart_badArgument (s := s.latch 0x07) hm ha hst hd ?_)
        exact Bool.eq_false_iff.mpr fun h => hok.mp h hbad
      · have hgood' := hok.mpr hgood
        obtain ⟨l, hl⟩ := startLine_of_startOk hgood'
        exact exec_taken (s := s) rfl hs (chStart_closed (s := s.latch 0x07) hm ha hst hd hgood' hl hclosed)

/-! ### LOCK_CLEAR (R167) -/

/-- Settles O57: in LOCKED every channel is swept. -/
theorem lockClearSweepsChannels : Obligations.LockClearSweepsChannels := by
  intro hi s hs
  refine ⟨fun hm => ?_, fun hm => exec_taken (s := s) (t := s.latch 0x0F) rfl hs (if_pos hm)⟩
  have h : lockClear s.window.args (s.latch 0x0F) =
      ({ (s.latch 0x0F).mapChannels (fun _ x => x.sweep) with urgent := { s.urgent with mode := .normal } }, .ok) :=
    if_neg (not_not.mpr hm)
  refine ⟨_, exec_taken (s := s) rfl hs h, fun c => ?_, rfl⟩
  exact mapChannels_getElem (s.latch 0x0F) (fun _ x => x.sweep) c

end Sys2Proof.Machine
end

section
/-! SUPPORT. The walker's state under the operations that do not walk, and the proof of
`Obligations.NoWalkStartsOutsideNormal` (R36). -/

namespace Sys2Proof.Machine

/-- `t` comes of `s` by a step that leaves the walker in its state. -/
def SameWalk (s t : State) : Prop := t.walker.state = s.walker.state

theorem SameWalk.of_walker {s t : State} (h : t.walker = s.walker) : SameWalk s t := congrArg Walker.state h

theorem SameWalk.trans {s t u : State} (h : SameWalk s t) (k : SameWalk t u) : SameWalk s u := Eq.trans k h

theorem SameWalk.idle {s t : State} (h : SameWalk s t) (k : s.walker.state = .idle) : t.walker.state = .idle := Eq.trans h k

/-! ### The Engine -/

theorem Goes.sameWalk {s t : State} (h : Goes s t) : SameWalk s t := by
  unfold SameWalk
  rw [h.walker]

theorem Acts.sameWalk {s t : State} (h : Acts s t) : SameWalk s t := by
  cases h with
  | goes h => exact h.sameWalk
  | ends c st h => exact h.sameWalk
  | faults c k a addr h => exact h.sameWalk
  | holds f h => exact h.sameWalk

theorem sameWalk_nextBeat (s : State) : SameWalk s s.nextBeat := by
  cases hs : s.engine.server with
  | channel c =>
    rcases nextBeat_channel s c hs with ⟨-, e⟩ | ⟨-, e⟩
    · rw [e]; exact .of_walker rfl
    · exact e.sameWalk
  | urgent =>
    rcases nextBeat_urgent s hs with ⟨-, e⟩ | ⟨-, e⟩
    · exact e.sameWalk
    · exact e.sameWalk

theorem sameWalk_fetchBegin (s : State) (w : Server) : SameWalk s (s.fetchBegin w) := (Acts.fetchBegin s w).sameWalk

theorem sameWalk_startRun (s : State) : SameWalk s s.startRun := (Acts.fetchBegin _ _).sameWalk

theorem sameWalk_rerunOrRestore (s : State) : SameWalk s s.rerunOrRestore := by
  unfold State.rerunOrRestore
  split
  · exact sameWalk_startRun _
  · exact .of_walker (by rw [beginRestore_eq])

theorem sameWalk_fetchDone (s : State) : SameWalk s s.fetchDone := by
  unfold State.fetchDone
  dsimp only
  split
  · split
    · exact .of_walker rfl
    · exact sameWalk_nextBeat _
  · exact (Acts.failAction _ _ _ _).sameWalk

theorem sameWalk_fetchReadEnd (s : State) (a : Access) (e : BusEnd) : SameWalk s (s.fetchReadEnd a e) := by
  cases e with
  | busError => exact (Acts.failAction _ _ _ _).sameWalk
  | ready sd =>
    unfold State.fetchReadEnd
    dsimp only
    split
    · exact sameWalk_fetchDone _
    · exact (Acts.fetchNext _).sameWalk

theorem sameWalk_beatReadEnd (s : State) (a : Access) (e : BusEnd) : SameWalk s (s.beatReadEnd a e) := by
  cases e with
  | busError => exact (Acts.failAction _ _ _ _).sameWalk
  | ready sd => exact (Goes.issueWrite _).sameWalk

theorem sameWalk_putElement (s : State) (e : Element) : SameWalk s (s.putElement e) := by
  unfold State.putElement
  split <;> exact .of_walker rfl

theorem sameWalk_beatWriteEnd (s : State) (e : BusEnd) : SameWalk s (s.beatWriteEnd e) := by
  cases e with
  | busError => exact (Acts.failAction _ _ _ _).sameWalk
  | ready sd =>
    have hput := sameWalk_putElement s s.element.advance
    exact hput.trans (sameWalk_nextBeat (State.modEngine _ _))

theorem sameWalk_statusWriteEnd (s : State) (e : BusEnd) : SameWalk s (s.statusWriteEnd e) := by
  cases e with
  | busError => exact (Acts.failAction _ _ _ _).sameWalk
  | ready sd =>
    unfold State.statusWriteEnd
    dsimp only
    split
    · rw [markDone_window]; exact .of_walker rfl
    · split
      · unfold State.urgentChainEnd
        split
        · exact .of_walker rfl
        · exact sameWalk_rerunOrRestore s
      · split
        · exact .of_walker rfl
        · exact sameWalk_fetchBegin _ _

/-! ### The Urgent Controller -/

theorem sameWalk_settleBus (s : State) : SameWalk s s.settleBus := .of_walker s.settleBus_walker

theorem sameWalk_declineWaiting (s : State) : SameWalk s s.declineWaiting := by
  unfold State.declineWaiting
  have engine (t : State) (h : SameWalk s t) :
      SameWalk s (match t.walker.probeWaiting with
        | some _ => (t.modWalker (fun w => { w with probeWaiting := none })).answerProbe (ProbeResult.empty .aborted)
        | none => t) := by
    split
    · exact h
    · exact h
  refine engine _ ?_
  split
  · exact SameWalk.trans (Acts.engineAnswer (s.modWalker fun w => { w with engineWaiting := none }) .declined).sameWalk
      (sameWalk_settleBus _)
  · exact rfl

theorem sameWalk_urgentRequest (s : State) (src : Source) : SameWalk s (s.urgentRequest src) := by
  unfold State.urgentRequest
  split
  · exact sameWalk_declineWaiting _
  · split <;> exact .of_walker rfl
  · split <;> exact .of_walker rfl
  · split <;> exact .of_walker rfl
  · split <;> exact .of_walker rfl
  · exact .of_walker rfl

theorem sameWalk_wakeLines (s : State) (lines : BitVec 8) : SameWalk s (s.wakeLines lines) := by
  unfold State.wakeLines
  split <;> exact .of_walker rfl

theorem sameWalk_saveWriteEnd (s : State) (e : BusEnd) : SameWalk s (s.saveWriteEnd e) := by
  cases e with
  | busError => exact .of_walker rfl
  | ready sd =>
    unfold State.saveWriteEnd
    dsimp only
    split
    · exact sameWalk_startRun _
    · exact .of_walker rfl

theorem sameWalk_relocate (s : State) : SameWalk s s.relocate := by
  unfold State.relocate
  dsimp only
  split
  · exact .of_walker rfl
  · exact sameWalk_wakeLines _ _

theorem sameWalk_finishRestore (s : State) : SameWalk s s.finishRestore := by
  unfold State.finishRestore
  split
  · exact .of_walker rfl
  · have hload : SameWalk s s.loadImage := .of_walker s.loadImage_walker
    exact hload.trans (sameWalk_relocate s.loadImage)

theorem sameWalk_restoreReadEnd (s : State) (a : Access) (e : BusEnd) : SameWalk s (s.restoreReadEnd a e) := by
  cases e with
  | busError => exact .of_walker rfl
  | ready sd =>
    unfold State.restoreReadEnd
    dsimp only
    split
    · refine SameWalk.trans ?_ (sameWalk_finishRestore _)
      exact .of_walker rfl
    · exact .of_walker rfl

/-! ### The commands -/

theorem sameWalk_invalidateDomain (s : State) (d : DomainId) : SameWalk s (s.invalidateDomain d) := by
  unfold SameWalk
  rw [invalidateDomain_eq]

theorem sameWalk_invalidatePage (s : State) (d : DomainId) (v : VAddr) : SameWalk s (s.invalidatePage d v) := by
  unfold SameWalk
  rw [invalidatePage_eq]

theorem sameWalk_invalidateAll (s : State) : SameWalk s s.invalidateAll := by
  unfold SameWalk
  rw [invalidateAll_eq]

theorem sameWalk_onChannel {f : ChannelId → Channel → Effect} (h : ∀ c x a s, SameWalk s (f c x a s).1) (a : Args)
    (s : State) : SameWalk s (onChannel f a s).1 := by
  unfold onChannel
  split
  · rfl
  · split
    · rfl
    · exact h _ _ a s

/-- No effect of a command changes the walker's state: an invalidation only marks the walk (R51). -/
theorem sameWalk_effect (code : Byte) (a : Args) (s : State) : SameWalk s (effectOf code a s).1 := by
  refine effectOf_forall (Q := fun f => SameWalk s (f a s).1) ?_ ?_ ?_ ?_ ?_ ?_ ?_ ?_ ?_ ?_ ?_ ?_ ?_ ?_ ?_ rfl code
  · unfold domOpen; dsimp only; repeat' split
    all_goals rfl
  · unfold domClose; repeat' split
    case h_2.isFalse.isFalse => exact sameWalk_invalidateDomain _ _
    all_goals rfl
  · exact sameWalk_invalidateAll _
  · unfold invDomain; split
    · rfl
    · exact sameWalk_invalidateDomain _ _
  · unfold invPage; split
    · rfl
    · split
      · exact sameWalk_invalidatePage _ _ _
      · rfl
  · unfold probe; repeat' split
    all_goals first | rfl | (unfold State.probeLookup; dsimp only; split <;> rfl)
  · refine sameWalk_onChannel (fun c x a s => ?_) a s
    repeat' split
    all_goals rfl
  · refine sameWalk_onChannel (fun c x a s => ?_) a s
    split <;> rfl
  · refine sameWalk_onChannel (fun c x a s => ?_) a s
    split <;> rfl
  · refine sameWalk_onChannel (fun c x a s => ?_) a s
    split
    case h_3 | h_4 => rw [markDone_window]; rfl
    all_goals rfl
  · refine sameWalk_onChannel (fun c x a s => ?_) a s
    split <;> rfl
  · unfold fqPop; repeat' split
    case isFalse.isFalse => unfold State.popFault; dsimp only; split <;> rfl
    all_goals rfl
  · exact sameWalk_urgentRequest _ _
  · unfold resume; split
    · rfl
    · exact sameWalk_rerunOrRestore _
  · unfold lockClear; split <;> rfl

/-! ### The walk that ends (R36) -/

/-- The walker is IDLE once a walk is over, whatever its outcome. -/
theorem idle_engineAnswer (s : State) (a : Answer) : (s.endWalk.engineAnswer a).walker.state = .idle :=
  (Acts.engineAnswer s.endWalk a).sameWalk

theorem idle_deliverFault (s : State) (k : FaultKind) : (s.deliverFault k).walker.state = .idle := by
  unfold State.deliverFault
  split
  · exact idle_engineAnswer s _
  · rfl

theorem idle_deliverDeclined (s : State) : s.deliverDeclined.walker.state = .idle := by
  unfold State.deliverDeclined
  split
  · exact idle_engineAnswer s _
  · rfl

/-- Outside NORMAL the end of an access leaves an IDLE walker IDLE: a stale walk ends there (R54). -/
theorem idle_walkAccessEnd {s : State} (hm : s.urgent.mode ≠ .normal) (h : s.walker.state = .idle) (a : Access) (e : BusEnd) :
    (s.walkAccessEnd a e).walker.state = .idle := by
  unfold State.walkAccessEnd
  rw [if_neg hm, h]
  split
  · exact idle_deliverDeclined s
  · cases e
    case busError => exact idle_deliverFault s _
    case ready => exact h

/-! ### The writes and the events -/

theorem idle_completeEngineReset (s : State) : s.completeEngineReset.walker.state = .idle := by
  obtain ⟨-, -, -, -, hwalker, -⟩ := completeEngineReset_blocks s
  exact congrArg Walker.state hwalker

theorem idle_beginEngineReset {s : State} (h : s.walker.state = .idle) : s.beginEngineReset.walker.state = .idle := by
  unfold State.beginEngineReset
  split
  · exact h
  · split
    · exact idle_completeEngineReset s
    · exact h

theorem sameWalk_bases (s : State) (v : Word) :
    SameWalk s (s.writeSaveLow v) ∧ SameWalk s (s.writeSaveHigh v) ∧ SameWalk s (s.writeListLow v)
    ∧ SameWalk s (s.writeListHigh v) := by
  unfold State.writeSaveLow State.writeSaveHigh State.writeListLow State.writeListHigh
  dsimp only
  refine ⟨?_, ?_, ?_, ?_⟩ <;> split <;> exact .of_walker rfl

theorem sameWalk_writeField (s : State) (f : DomainField) (v : Word) : SameWalk s (s.writeField f v) := by
  unfold State.writeField
  dsimp only
  split <;> exact .of_walker rfl

theorem sameWalk_writeGrants (s : State) (v : Word) : SameWalk s (s.writeGrants v) := by
  unfold State.writeGrants
  dsimp only
  split <;> exact .of_walker rfl

theorem sameWalk_command (s : State) (code : Byte) : SameWalk s (s.command code (effectOf code)) := by
  unfold State.command
  split
  · exact .of_walker rfl
  · exact sameWalk_effect code s.window.args (s.latch code)

theorem idle_writeReg {s : State} (h : s.walker.state = .idle) (reg : BitVec 6) (v : Word) :
    (s.writeReg reg v).walker.state = .idle := by
  obtain ⟨hsl, hsh, hll, hlh⟩ := sameWalk_bases s v
  unfold State.writeReg
  split
  case h_1 =>
    unfold State.writeCtrl
    split
    · exact idle_beginEngineReset h
    · exact h
  case h_2 => exact (sameWalk_command s _).idle h
  case h_12 | h_13 | h_14 | h_15 => exact (sameWalk_writeField s _ v).idle h
  case h_16 => exact (sameWalk_writeGrants s v).idle h
  case h_18 => exact hsl.idle h
  case h_19 => exact hsh.idle h
  case h_20 => exact hll.idle h
  case h_21 => exact hlh.idle h
  all_goals exact h

theorem sameWalk_urqFalls (s : State) : SameWalk s s.urqFalls := by
  unfold State.urqFalls
  dsimp only
  split
  · refine SameWalk.trans ?_ (sameWalk_urgentRequest _ _)
    exact .of_walker rfl
  · exact .of_walker rfl

theorem idle_unlessReset {s t : State} (h : s.walker.state = .idle) (k : t.walker.state = .idle) :
    (s.unlessReset t).walker.state = .idle := by
  unfold State.unlessReset
  split <;> assumption

/-- The end of an access leaves an IDLE walker IDLE where the requester's action does. -/
theorem idle_accessEnd {s : State} (h : s.walker.state = .idle) (r : Slot) (on : Bool) {act : State → Access → State}
    (hact : ∀ a, (act { s with sbi := s.sbi.ended } a).walker.state = .idle) : (s.accessEnd r on act).walker.state = .idle := by
  unfold State.accessEnd
  split
  · exact h
  · split
    · split
      · exact idle_completeEngineReset s
      · exact (sameWalk_settleBus _).idle (hact _)
    · exact h

/-- Settles O30: a walk starts at WALK_START or after a stale access, and both test the mode; every other row leaves an IDLE
walker IDLE. -/
theorem noWalkStartsOutsideNormal : Obligations.NoWalkStartsOutsideNormal := by
  intro i s t hm h e
  cases hi : i.asWrite with
  | some w =>
    obtain ⟨reg, v⟩ := w
    rw [exec_of_asWrite hi] at e
    cases e
    exact idle_unlessReset h (idle_writeReg h reg v)
  | none =>
    cases i
    case hardReset => cases e; rfl
    case rstRelease =>
      cases e
      unfold State.releaseReset
      split <;> exact h
    case engineResetComplete =>
      cases e
      refine idle_unlessReset h ?_
      split
      · exact idle_completeEngineReset s
      · exact h
    case urqRequest => cases e; exact idle_unlessReset h ((sameWalk_urqFalls s).idle h)
    case urqArm => cases e; exact idle_unlessReset h h
    case lineAsserted n => cases e; exact idle_unlessReset h ((sameWalk_wakeLines _ _).idle h)
    case schedulerGrant preq =>
      cases e
      have hno : (s.sampleLines preq).grantPossible = false := by simp [State.grantPossible, hm]
      rw [schedule_impossible hno]
      exact idle_unlessReset h h
    case walkStart =>
      cases e
      rw [if_neg (by simp [State.walkMayStart, hm])]
      exact idle_unlessReset h h
    case walkAccessEnd e' =>
      cases e
      exact idle_unlessReset h (idle_accessEnd h _ _ fun a => idle_walkAccessEnd (s := { s with sbi := s.sbi.ended }) hm h a e')
    case fetchReadEnd e' =>
      cases e
      exact idle_unlessReset h (idle_accessEnd h _ _ fun a => (sameWalk_fetchReadEnd _ a e').idle h)
    case beatReadEnd e' =>
      cases e
      exact idle_unlessReset h (idle_accessEnd h _ _ fun a => (sameWalk_beatReadEnd _ a e').idle h)
    case beatWriteEnd e' preq =>
      cases e
      exact idle_unlessReset h (idle_accessEnd h _ _ fun a => (sameWalk_beatWriteEnd _ e').idle h)
    case statusWriteEnd e' =>
      cases e
      exact idle_unlessReset h (idle_accessEnd h _ _ fun a => (sameWalk_statusWriteEnd _ e').idle h)
    case saveBegin =>
      cases e
      refine idle_unlessReset h ?_
      split <;> exact h
    case saveWriteEnd e' =>
      cases e
      exact idle_unlessReset h (idle_accessEnd h _ _ fun a => (sameWalk_saveWriteEnd _ e').idle h)
    case restoreReadEnd e' preq =>
      cases e; exact idle_unlessReset h (idle_accessEnd h _ _ fun a => (sameWalk_restoreReadEnd _ a e').idle h)
    case busGrant => cases e; exact idle_unlessReset h h
    case busGrantDeasserted => cases e; exact idle_unlessReset h h
    all_goals cases hi

end Sys2Proof.Machine
end

section
/-! SUPPORT. The lookup, the marks and the installs of the translation cache, and the proof of `Obligations.LookupAnswers`
(R40 to R44). -/

namespace Sys2Proof.Machine

/-! ### The Engine's lookup (R40 to R42) -/

theorem MemAccess.writes_iff (a : MemAccess) : a.writes = true ↔ a = .write ∨ a = .writeback := by
  cases a <;> simp [MemAccess.writes]

section Translate

variable {s : State} {d : DomainId} {v : VAddr} {a : MemAccess}

theorem translate_miss (h : hitWay s.cache[setOf (vpnOf v)] d (vpnOf v) = none) :
    s.translate d v a = s.requestWalk { domain := d, vaddr := v, access := a } := by
  unfold State.translate
  simp only [h]

variable {w : Fin 4} (h : hitWay s.cache[setOf (vpnOf v)] d (vpnOf v) = some w)

include h

theorem translate_read (ha : ¬ (a = .write ∨ a = .writeback)) : s.translate d v a =
    (.translated (s.cache[setOf (vpnOf v)][w].frame ++ v.extractLsb' 0 11), s.touch (setOf (vpnOf v)) w) := by
  unfold State.translate
  simp only [h]
  exact if_neg (mt a.writes_iff.mp ha)

theorem translate_denied (ha : a = .write ∨ a = .writeback) (hw : s.cache[setOf (vpnOf v)][w].writable = false) :
    s.translate d v a = (.fault .writeDenied, s.touch (setOf (vpnOf v)) w) := by
  unfold State.translate
  simp only [h]
  rw [if_pos (a.writes_iff.mpr ha), if_pos (by rw [hw]; rfl)]

theorem translate_write (ha : a = .write ∨ a = .writeback) (hw : s.cache[setOf (vpnOf v)][w].writable = true)
    (hk : s.cache[setOf (vpnOf v)][w].writtenKnown = true ∨ s.domains[d].trackWritten = false) : s.translate d v a =
    (.translated (s.cache[setOf (vpnOf v)][w].frame ++ v.extractLsb' 0 11), s.touch (setOf (vpnOf v)) w) := by
  unfold State.translate
  simp only [h]
  rw [if_pos (a.writes_iff.mpr ha), if_neg (by rw [hw]; nofun), if_pos (by simpa using hk)]
  rfl

theorem translate_update (ha : a = .write ∨ a = .writeback) (hw : s.cache[setOf (vpnOf v)][w].writable = true)
    (hk : s.cache[setOf (vpnOf v)][w].writtenKnown = false) (ht : s.domains[d].trackWritten = true) :
    s.translate d v a = (s.touch (setOf (vpnOf v)) w).requestWalk { domain := d, vaddr := v, access := a } := by
  unfold State.translate
  simp only [h]
  rw [if_pos (a.writes_iff.mpr ha), if_neg (by rw [hw]; nofun), if_neg (by rw [hk, ht]; nofun)]

end Translate

theorem requestWalk_normal {s : State} (hm : s.urgent.mode = .normal) (r : WalkRequest) : s.requestWalk r =
    (.waiting, { s with walker := { s.walker with engineWaiting := some r } }) := if_pos hm

theorem requestWalk_declined {s : State} (hm : s.urgent.mode ≠ .normal) (r : WalkRequest) :
    s.requestWalk r = (.declined, s) := if_neg hm

/-! ### Marks (R44) -/

theorem allMarked_markWay (t : CacheSet) (w : Fin 4) :
    allMarked (markWay t w) = true ↔ ∀ k : Fin 4, k ≠ w → t[k].referenced = true := by
  have marked (k : Fin 4) : (markWay t w)[k].referenced = true ↔ (k ≠ w → t[k].referenced = true) := by
    rw [markWay_getElem]
    by_cases hk : k = w
    · simp only [hk, if_true, ne_eq, not_true_eq_false, false_implies]
    · simp only [hk, if_false, ne_eq, not_false_eq_true, true_implies]
  simp only [allMarked, List.all_eq_true, allWays_mem, true_implies, marked]

/-- The marks of a set after a mark: the way's own, and the others' where not all were set. -/
theorem markReferenced_getElem (t : CacheSet) (w i : Fin 4) : (markReferenced t w)[i] = { t[i] with
    referenced := decide (i = w) || (t[i].referenced && !decide (∀ k : Fin 4, k ≠ w → t[k].referenced = true)) } := by
  unfold markReferenced
  by_cases hall : ∀ k : Fin 4, k ≠ w → t[k].referenced = true
  · rw [if_pos ((allMarked_markWay t w).mpr hall), unmarkOthers_getElem, markWay_getElem, decide_eq_true hall]
    by_cases hi : i = w
    · simp only [hi, if_true, decide_true, Bool.true_or]
    · simp only [hi, if_false, decide_false, Bool.not_true, Bool.and_false, Bool.or_false]
  · rw [if_neg (mt (allMarked_markWay t w).mp hall), markWay_getElem, decide_eq_false hall]
    by_cases hi : i = w
    · simp only [hi, if_true, decide_true, Bool.true_or]
    · simp only [hi, if_false, decide_false, Bool.not_false, Bool.and_true, Bool.false_or]

/-! ### Installs (R43) -/

theorem allWays_eq_finRange : allWays = List.finRange 4 := by decide

theorem allWays_find?_eq_some_iff {p : Fin 4 → Bool} {w : Fin 4} :
    allWays.find? p = some w ↔ p w = true ∧ ∀ k : Fin 4, k < w → p k = false := by
  rw [allWays_eq_finRange, ← Fin.find?_eq_find?_finRange, Fin.find?_eq_some_iff]

theorem hitWay_eq_some_iff {t : CacheSet} {d : DomainId} {p : Vpn} {w : Fin 4} :
    hitWay t d p = some w ↔ t[w].hits d p = true ∧ ∀ k : Fin 4, k < w → t[k].hits d p = false :=
  allWays_find?_eq_some_iff

/-- The way that an install takes, in a set that has an unmarked way (R43). -/
theorem installWay_lowest {t : CacheSet} {d : DomainId} {p : Vpn} {w : Fin 4} (hw : installWay t d p = w)
    (hr : ∃ w : Fin 4, t[w].referenced = false) :
    t[w].hits d p = true
    ∨ ((∀ k : Fin 4, t[k].hits d p = false)
      ∧ ((t[w].valid = false ∧ ∀ k : Fin 4, k < w → t[k].valid = true)
        ∨ ((∀ k : Fin 4, t[k].valid = true) ∧ t[w].referenced = false ∧ ∀ k : Fin 4, k < w → t[k].referenced = true))) := by
  unfold installWay at hw
  cases hhit : hitWay t d p with
  | some j =>
    simp only [hhit] at hw
    exact .inl (hw ▸ hitWay_some hhit)
  | none =>
    refine .inr ⟨hitWay_none hhit, ?_⟩
    simp only [hhit] at hw
    cases hvalid : allWays.find? (fun i => !t[i].valid) with
    | some j =>
      simp only [hvalid] at hw
      subst hw
      obtain ⟨hj, hbelow⟩ := allWays_find?_eq_some_iff.mp hvalid
      exact .inl ⟨by simpa using hj, fun k hk => by simpa using hbelow k hk⟩
    | none =>
      have hall (k : Fin 4) : t[k].valid = true := by simpa using List.find?_eq_none.mp hvalid k (allWays_mem k)
      simp only [hvalid] at hw
      cases hmark : allWays.find? (fun i => !t[i].referenced) with
      | none =>
        obtain ⟨k, hk⟩ := hr
        have hmarked : t[k].referenced = true := by simpa using List.find?_eq_none.mp hmark k (allWays_mem k)
        rw [hk] at hmarked
        cases hmarked
      | some j =>
        rw [hmark, Option.getD_some] at hw
        subst hw
        obtain ⟨hj, hbelow⟩ := allWays_find?_eq_some_iff.mp hmark
        exact .inr ⟨hall, by simpa using hj, fun k hk => by simpa using hbelow k hk⟩

/-- An installed translation is found, in the way that the install took, where the page stood in one way at most. -/
theorem hitWay_installInto {t : CacheSet} {x : Translation} (hr : ∃ w : Fin 4, t[w].referenced = false)
    (hone : ∀ w w' : Fin 4, t[w].hits x.domain x.vpn = true → t[w'].hits x.domain x.vpn = true → w = w') :
    hitWay (installInto t x) x.domain x.vpn = some (installWay t x.domain x.vpn) := by
  have hits (i : Fin 4) : (installInto t x)[i].hits x.domain x.vpn =
      if i = installWay t x.domain x.vpn then true else t[i].hits x.domain x.vpn := by
    rw [installInto_getElem]
    split
    · simp [CacheEntry.hits]
    · rfl
  rw [hitWay_eq_some_iff, hits, if_pos rfl]
  refine ⟨rfl, fun k hk => ?_⟩
  rw [hits, if_neg hk.ne, Bool.eq_false_iff]
  intro hkhit
  rcases installWay_lowest rfl hr with hhit | ⟨hmiss, -⟩
  · exact hk.ne (hone _ _ hkhit hhit)
  · rw [hmiss k] at hkhit
    cases hkhit

/-- Settles O25: the lookup case by case, the marks entry by entry, and the way that an install takes. -/
theorem lookupAnswers : Obligations.LookupAnswers := by
  refine ⟨fun s d v a => ⟨fun w h => ⟨?_, ?_, ?_, ?_⟩, translate_miss, fun r => ⟨fun hm => requestWalk_normal hm r,
    fun hm => requestWalk_declined hm r⟩⟩, markReferenced_getElem, fun _ _ _ => rfl, fun _ _ => rfl, fun t x hr hone => ?_⟩
  · exact translate_read h
  · exact translate_denied h
  · exact translate_write h
  · exact translate_update h
  · exact ⟨installWay t x.domain x.vpn, installWay_lowest rfl hr, rfl, hitWay_installInto hr hone⟩

end Sys2Proof.Machine
end

section
/-! SUPPORT. The ends of the Engine's accesses, of the urgent chain and of a hold, and the proofs of
`Obligations.LineAssertedWakesItsChannels`, `Obligations.BeatReadIssuesTheWrite`, `Obligations.StatusWriteAdvances`,
`Obligations.UrgentChainEndDecides`, `Obligations.BusErrorsAreReported` and `Obligations.ResumeRerunsOrRestores`. -/

namespace Sys2Proof.Machine

/-! ### Pacing lines (R85) -/

/-- A channel that a set of lines wakes. -/
theorem Channel.wake_eq (x : Channel) (lines : BitVec 8) : x.wake lines =
    if x.state = .waitReq ∧ ∃ n : Fin 8, x.line = some n ∧ lines.getLsbD n.val = true then { x with state := .ready } else x := by
  unfold Channel.wake
  split
  · rename_i n hst hl
    exact if_congr ⟨fun h => ⟨hst, n, hl, h⟩, fun ⟨_, m, hm, h⟩ => by rw [hl] at hm; cases hm; exact h⟩ rfl rfl
  · rename_i hno
    rw [if_neg]
    rintro ⟨hst, n, hl, -⟩
    exact hno n hst hl

theorem getLsbD_line (n m : Fin 8) : (1#8 <<< n.val).getLsbD m.val = true ↔ m = n := by revert n m; decide

theorem wakeLines_getElem (s : State) (lines : BitVec 8) (c : ChannelId) : (s.wakeLines lines).channels[c] =
    if s.urgent.mode = .normal ∧ ¬ s.window.resetting then s.channels[c].wake lines else s.channels[c] := by
  unfold State.wakeLines
  split
  · exact mapChannels_getElem s _ c
  · rfl

theorem wakeLines_frame (s : State) (lines : BitVec 8) : s.wakeLines lines =
    { s with channels := (s.wakeLines lines).channels } := by
  unfold State.wakeLines
  split <;> rfl

/-- Settles O42: the row wakes by the mask of its line. -/
theorem lineAssertedWakesItsChannels : Obligations.LineAssertedWakesItsChannels := by
  intro n s hrun
  refine ⟨_, congrArg Host.Outcome.next (unlessReset_running hrun), fun c => ?_, ?_⟩
  · unfold State.lineRises
    rw [wakeLines_getElem, Channel.wake_eq, ← ite_and]
    refine if_congr ?_ rfl rfl
    simp only [State.sampleLines_urgent, State.sampleLines_window, State.sampleLines_channels, getLsbD_line,
      Bool.not_eq_true, and_assoc, exists_eq_right]
  · unfold State.lineRises
    rw [wakeLines_frame]
    rfl

/-! ### The end of an access of the Engine -/

section EngineAccess

variable {s : State} {a : Access} (h : s.Carrying .engine a)

include h

theorem exec_fetchReadEnd (hv : s.engine.service = .fetch) (e : BusEnd) :
    exec (.fetchReadEnd e) s = .next (State.fetchReadEnd { s with sbi := s.sbi.ended } a e).settleBus :=
  congrArg Host.Outcome.next (accessEnd_carried h (by rw [hv]; rfl) _)

theorem exec_beatReadEnd (hv : s.engine.service = .move) (hg : s.engine.stage = .read) (e : BusEnd) :
    exec (.beatReadEnd e) s = .next (State.beatReadEnd { s with sbi := s.sbi.ended } a e).settleBus :=
  congrArg Host.Outcome.next (accessEnd_carried h (by rw [hv, hg]; rfl) _)

theorem exec_beatWriteEnd (hv : s.engine.service = .move) (hg : s.engine.stage = .write) (e : BusEnd) (preq : BitVec 8) :
    exec (.beatWriteEnd e preq) s =
      .next ((State.sampleLines { s with sbi := s.sbi.ended } preq).beatWriteEnd e).settleBus :=
  congrArg Host.Outcome.next (accessEnd_carried h (by rw [hv, hg]; rfl) _)

theorem exec_statusWriteEnd (hv : s.engine.service = .writeback) (e : BusEnd) :
    exec (.statusWriteEnd e) s = .next (State.statusWriteEnd { s with sbi := s.sbi.ended } e).settleBus :=
  congrArg Host.Outcome.next (accessEnd_carried h (by rw [hv]; rfl) _)

end EngineAccess

/-- The data that a read takes, lane by lane (R171). -/
theorem taken_eq (a : Access) (sd : Word) : a.taken sd =
    if a.width = .word then sd
    else if a.address.getLsbD 0 then (sd.extractLsb' 8 8).setWidth 16 else (sd.extractLsb' 0 8).setWidth 16 := by
  unfold Access.taken Access.highLane
  cases a.width with
  | word => rfl
  | byte => cases a.address.getLsbD 0 <;> rfl

theorem taken_word {a : Access} (h : a.width = .word) (sd : Word) : a.taken sd = sd := by rw [taken_eq, if_pos h]

/-- The write of a beat goes to a port for an EMIT and to memory otherwise (R112). -/
theorem issueWrite_eq (s : State) : s.issueWrite =
    State.handOver { s with engine := { s.engine with stage := .write } } .engine
      (if s.element.control.toNat % 4 = 2 then
        { space := .port, width := widthOf s.element.control, address := portAddr (portOf s.element.dest),
          write := s.engine.datum }
      else
        { space := .memory, width := widthOf s.element.control, address := s.engine.writeAt.getD 0,
          write := s.engine.datum }) := by
  unfold State.issueWrite
  dsimp only
  cases hk : kindOf s.element.control
  case emit => rw [if_pos ((kindEmit _).mp hk)]; rfl
  all_goals rw [if_neg (notEmit hk)]; rfl

/-- Settles O45: the write is issued with the datum that the read's lanes carry. -/
theorem beatReadIssuesTheWrite : Obligations.BeatReadIssuesTheWrite := by
  intro s a sd h hv hg e datum issued
  have hdatum : a.taken sd = datum := taken_eq a sd
  have hrow := exec_beatReadEnd h hv hg (.ready sd)
  unfold State.beatReadEnd at hrow
  dsimp only at hrow
  rw [issueWrite_eq, settleBus_handOver, hdatum] at hrow
  refine ⟨fun p hk hp => ?memory, fun hk => ?port⟩
  case memory =>
    refine hrow.trans ?_
    rw [if_neg (by exact hk)]
    simp only [State.modEngine, hp]
    rfl
  case port =>
    refine hrow.trans ?_
    rw [if_pos (by exact hk)]
    rfl

/-! ### Bus errors (R71, R115, R116, R149) -/

theorem readSide_eq (e : Element) : e.readSide =
    if e.control.toNat % 4 = 1 then (.portRead, (e.source.extractLsb' 0 8).setWidth 22)
    else (.read, e.source.extractLsb' 0 22) := by
  unfold Element.readSide
  cases hk : kindOf e.control
  case ingest => rw [if_pos ((kindIngest _).mp hk)]; rfl
  all_goals rw [if_neg (notIngest hk)]; rfl

theorem writeSide_eq (e : Element) : e.writeSide =
    if e.control.toNat % 4 = 2 then (.portWrite, (e.dest.extractLsb' 0 8).setWidth 22)
    else (.write, e.dest.extractLsb' 0 22) := by
  unfold Element.writeSide
  cases hk : kindOf e.control
  case emit => rw [if_pos ((kindEmit _).mp hk)]; rfl
  all_goals rw [if_neg (notEmit hk)]; rfl

/-- An action of U that fails stops its run (R149). -/
theorem failAction_held {g : State} (hs : g.engine.server = .urgent) (k : FaultKind) (a : FaultAccess) (addr : BitVec 22) :
    (g.failAction k a addr).settleBus = { g with
      engine := Engine.free, sbi := g.sbi.settle
      urgent := { g.urgent with mode := .urgentHold, fault := urgentFaultOf k }
      window := { g.window with urgentCause := true } } := by
  rw [failAction_urgent hs, settleBus_free rfl]
  rfl

/-- Settles O49: each row is the failure of its action, with the fault access and address of its side. -/
theorem busErrorsAreReported : Obligations.BusErrorsAreReported := by
  intro s a preq i acc addr h e kind hi
  obtain ⟨g, hg, hrow⟩ : ∃ g : State, g = { s with pins := g.pins, sbi := s.sbi.ended }
      ∧ exec i s = .next (g.failAction .busError acc addr).settleBus := by
    rcases hi with ⟨rfl, hv, rfl, rfl⟩ | ⟨rfl, hv, hst, rfl, rfl⟩ | ⟨rfl, hv, hst, rfl, rfl⟩ | ⟨rfl, hv, rfl, rfl⟩
    · exact ⟨_, rfl, exec_fetchReadEnd h hv .busError⟩
    · refine ⟨{ s with sbi := s.sbi.ended }, rfl, (exec_beatReadEnd h hv hst .busError).trans ?_⟩
      change Host.Outcome.next (State.failAction _ _ e.readSide.1 e.readSide.2).settleBus = _
      rw [readSide_eq, apply_ite Prod.fst, apply_ite Prod.snd]
    · refine ⟨State.sampleLines { s with sbi := s.sbi.ended } preq, rfl, (exec_beatWriteEnd h hv hst .busError preq).trans ?_⟩
      change Host.Outcome.next (State.failAction _ _ e.writeSide.1 e.writeSide.2).settleBus = _
      rw [writeSide_eq, apply_ite Prod.fst, apply_ite Prod.snd]
    · exact ⟨_, rfl, exec_statusWriteEnd h hv .busError⟩
  rw [hrow]
  generalize g.pins = pins at hg
  subst hg
  refine ⟨fun c hs => ?channel, fun hs => ?urgent⟩
  case channel =>
    obtain ⟨t, ht, hreported, hframe⟩ :=
      failAction_checkFails (g := { s with pins := pins, sbi := s.sbi.ended }) hs true .busError acc addr
    refine ⟨t, ht, hreported, ?_⟩
    rw [hframe]
    rfl
  case urgent =>
    rw [failAction_held (g := { s with pins := pins, sbi := s.sbi.ended }) hs]
    exact ⟨_, rfl, rfl⟩

end Sys2Proof.Machine
end

section
/-! SUPPORT. The status write, the end of U's chain and a hold that ends, and the proofs of
`Obligations.StatusWriteAdvances`, `Obligations.UrgentChainEndDecides` and `Obligations.ResumeRerunsOrRestores`. -/

namespace Sys2Proof.Machine

/-! ### The SBI at the end of a step -/

/-- A step that leaves an access handed over lets the SBI settle (R169, R173). -/
theorem settleBus_asked {t : State} {b : Sbi} {r : Slot} {a : Access} (h : t.sbi = b.handOver r a) :
    t.settleBus = { t with sbi := (b.handOver r a).settle } := by
  rw [settleBus_pending (by rw [h]; exact handOver_anyPending b r a), h]

/-- U's run stops (R149). -/
theorem enterHold_settled (g : State) (f : UrgentFault) : (g.enterHold f).settleBus = { g with
    engine := Engine.free, sbi := g.sbi.settle
    urgent := { g.urgent with mode := .urgentHold, fault := f }
    window := { g.window with urgentCause := true } } := by
  rw [settleBus_free rfl]
  rfl

/-- U's fetch begins at a position that passes the check (R60, R64). -/
theorem fetchBegin_urgent {g : State} (h : descAddrOk .urgent g.urgent.u.position = true) : g.fetchBegin .urgent = { g with
    engine := { Engine.free with service := .fetch, server := .urgent }
    sbi := g.sbi.handOver .engine (readWord (physicalOf g.urgent.u.position)) } := by
  have haddr : physicalOf g.urgent.u.position + BitVec.ofNat 24 (2 * 0) = physicalOf g.urgent.u.position := by simp
  unfold State.fetchBegin
  dsimp only
  rw [if_pos (by exact h)]
  unfold State.fetchNext
  change State.handOver _ _ (readWord (physicalOf g.urgent.u.position + BitVec.ofNat 24 (2 * 0))) = _
  rw [haddr]
  rfl

/-! ### The status write (R70, R72) -/

section StatusWrite

variable {g : State} (sd : Word)

theorem statusWriteEnd_channel {c : ChannelId} (hs : g.engine.server = .channel c) : g.statusWriteEnd (.ready sd) =
    ((g.modChannel c Channel.advance).markDone c g.channels[c].control).endService c
      (if isEnd g.channels[c].control then .done else .ready) := by
  unfold State.statusWriteEnd
  simp only [hs]

variable (hs : g.engine.server = .urgent)

include hs

theorem statusWriteEnd_chainEnd (he : g.urgent.u.control.getLsbD 3 = true) :
    g.statusWriteEnd (.ready sd) = g.urgentChainEnd := by
  unfold State.statusWriteEnd
  simp only [hs]
  exact if_pos he

theorem statusWriteEnd_hold (he : g.urgent.u.control.getLsbD 3 = false) (hh : g.urgent.u.control.getLsbD 5 = true) :
    g.statusWriteEnd (.ready sd) = g.enterHold .none := by
  unfold State.statusWriteEnd
  simp only [hs]
  exact (if_neg (Bool.eq_false_iff.mp he)).trans (if_pos hh)

theorem statusWriteEnd_next (he : g.urgent.u.control.getLsbD 3 = false) (hh : g.urgent.u.control.getLsbD 5 = false) :
    g.statusWriteEnd (.ready sd) =
      (g.modU (fun x => { x with position := x.next, phase := .fetch })).fetchBegin .urgent := by
  unfold State.statusWriteEnd
  simp only [hs]
  exact (if_neg (Bool.eq_false_iff.mp he)).trans (if_neg (Bool.eq_false_iff.mp hh))

end StatusWrite

/-- The state in which a context leaves a service does not depend on the state that it had. -/
theorem afterService_state (x : Channel) (q st : ChannelState) : ({ x with state := q } : Channel).afterService st =
    x.afterService st := rfl

/-- What a service leaves of a context that it has just written (R82, R95). -/
theorem endService_modChannel (g : State) (c : ChannelId) (f : Channel → Channel) (k : Byte) (st : ChannelState) :
    ((g.modChannel c f).markDone c k).endService c st = { g with
      channels := g.channels.set c ((f g.channels[c]).afterService st), engine := Engine.free
      window := { g.window with done := (g.markDone c k).window.done } } := by
  have hself : (g.modChannel c f).channels[c] = f g.channels[c] := setChannel_self g c _
  rw [endService_eq, markDone_frame]
  dsimp only
  rw [hself, State.modChannel, State.setChannel_channels, Vector.set_set]
  congr 1
  unfold State.markDone
  split <;> rfl

/-- Settles O47: the channel advances and leaves its service; U holds, fetches on, or stops at a bad address. -/
theorem statusWriteAdvances : Obligations.StatusWriteAdvances := by
  intro s a sd h hv
  have hrow := exec_statusWriteEnd h hv (.ready sd)
  refine ⟨fun c hs => ?channel, fun hs he hh => ?hold, fun hs he hh hbad => ?bad, fun hs he hh hmod hmax => ?next⟩
  case channel =>
    intro x
    rw [statusWriteEnd_channel sd (by exact hs), endService_modChannel, settleBus_free rfl] at hrow
    refine ⟨_, hrow, fun he => ?_, fun he => ?_, fun n => ?_, rfl⟩
    · change s.channels.set c (x.advance.afterService (if x.control.getLsbD 3 = true then .done else .ready)) = _
      rw [Channel.advance_next he, he, if_neg nofun]
      rfl
    · change s.channels.set c (x.advance.afterService (if x.control.getLsbD 3 = true then .done else .ready)) = _
      rw [Channel.advance_end he, if_pos he]
      rfl
    · exact doneFlag_markDone _ c n x.control
  case hold =>
    rw [hrow, statusWriteEnd_hold sd (by exact hs) (by exact he) (by exact hh), enterHold_settled]
  case bad =>
    have hnot : descAddrOk .urgent s.urgent.u.next = false := by
      rwa [Bool.eq_false_iff, Ne, descAddrOk_urgent_iff]
    rw [hrow, statusWriteEnd_next sd (by exact hs) (by exact he) (by exact hh), fetchBegin_urgent_bad _ (by exact hnot),
      settleBus_free rfl]
    rfl
  case next =>
    have hok : descAddrOk .urgent s.urgent.u.next = true := (descAddrOk_urgent_iff _).mpr ⟨hmod, hmax⟩
    rw [hrow, statusWriteEnd_next sd (by exact hs) (by exact he) (by exact hh), fetchBegin_urgent (by exact hok),
      settleBus_asked rfl]
    rfl

/-! ### The run again, or the restore (R148, R152) -/

theorem rerunOrRestore_latched {g : State} {src : Source} (h : g.urgent.latch = some src) :
    g.rerunOrRestore = ({ g with urgent := { g.urgent with latch := none } }).startRun := by
  unfold State.rerunOrRestore
  simp only [h]

theorem rerunOrRestore_clear {g : State} (h : g.urgent.latch = none) : g.rerunOrRestore = g.beginRestore := by
  unfold State.rerunOrRestore
  simp only [h]

theorem urgentChainEnd_hold {g : State} (h : g.urgent.latch = none) (hh : g.urgent.u.control.getLsbD 5 = true) :
    g.urgentChainEnd = g.enterHold .none := if_pos ⟨h, hh⟩

theorem urgentChainEnd_goesOn {g : State} (h : ¬ (g.urgent.latch = none ∧ g.urgent.u.control.getLsbD 5 = true)) :
    g.urgentChainEnd = g.rerunOrRestore := if_neg h

/-- Settles O48: the END advance is decided by the latch, the HOLD bit and the list base. -/
theorem urgentChainEndDecides : Obligations.UrgentChainEndDecides := by
  intro s a sd h ⟨hs, hv⟩ he
  have hrow := exec_statusWriteEnd h hv (.ready sd)
  rw [statusWriteEnd_chainEnd sd (by exact hs) (by exact he)] at hrow
  refine ⟨fun src hl hbase => ?rerun, fun hl hbase => ?bad, fun hl hh => ?hold, fun hl hh => ?restore⟩
  case rerun =>
    rw [hrow, urgentChainEnd_goesOn (fun k => by rw [k.1] at hl; cases hl), rerunOrRestore_latched (by exact hl),
      startRun_eq _ (by exact hbase), settleBus_asked rfl]
  case bad =>
    obtain ⟨src, hsrc⟩ := Option.ne_none_iff_exists'.mp hl
    rw [hrow, urgentChainEnd_goesOn (g := { s with sbi := s.sbi.ended }) (fun k => hl k.1),
      rerunOrRestore_latched (by exact hsrc), startRun_bad _ (by exact hbase), settleBus_free rfl]
  case hold => rw [hrow, urgentChainEnd_hold (by exact hl) (by exact hh), enterHold_settled]
  case restore =>
    rw [hrow, urgentChainEnd_goesOn (fun k => by rw [hh] at k; cases k.2), rerunOrRestore_clear (by exact hl),
      beginRestore_eq, settleBus_asked rfl]

theorem resume_badState {a : Args} {s : State} (h : s.urgent.mode ≠ .urgentHold) : resume a s = (s, .badState) := if_pos h

theorem resume_goesOn {a : Args} {s : State} (h : s.urgent.mode = .urgentHold) : resume a s = (s.rerunOrRestore, .ok) :=
  if_neg (not_not.mpr h)

/-- Settles O56: out of URGENT_HOLD the run goes on as at the end of a chain without HOLD. -/
theorem resumeRerunsOrRestores : Obligations.ResumeRerunsOrRestores := by
  intro hi s hs
  refine ⟨fun src hm hl hbase => ?rerun, fun hm hl hbase => ?bad, fun hm hl => ?restore, fun hm => ?refused⟩
  case refused => exact exec_taken (s := s) rfl hs (resume_badState (s := s.latch 0x0E) hm)
  all_goals rw [exec_taken (i := .resume hi) (s := s) rfl hs (resume_goesOn (s := s.latch 0x0E) hm)]
  case rerun =>
    rw [rerunOrRestore_latched (by exact hl), startRun_eq _ (by exact hbase)]
    rfl
  case bad =>
    obtain ⟨src, hsrc⟩ := Option.ne_none_iff_exists'.mp hl
    rw [rerunOrRestore_latched (by exact hsrc), startRun_bad _ (by exact hbase)]
    rfl
  case restore =>
    rw [rerunOrRestore_clear (by exact hl), beginRestore_eq]
    rfl

end Sys2Proof.Machine
end

section
/-! SUPPORT. The format checks of R65 and R66 with numbers, and the proof of `Obligations.DescriptorChecksInNumbers`. -/

namespace Sys2Proof.Machine

/-- The width of an element as a number of bytes (R62). -/
def bytesOf (control : Byte) : Nat := if control.getLsbD 2 = true then 2 else 1

theorem widthOf_bytes (control : Byte) : (widthOf control).bytes = bytesOf control := by
  unfold widthOf bytesOf
  cases control.getLsbD 2 <;> rfl

theorem bytesOf_pos (control : Byte) : 1 ≤ bytesOf control := by
  unfold bytesOf
  split <;> omega

theorem getLsbD_zero_eq_false {k : Nat} (a : BitVec k) : a.getLsbD 0 = false ↔ a.toNat % 2 = 0 := by
  unfold BitVec.getLsbD
  rw [Nat.testBit_zero, decide_eq_false_iff_not]
  omega

/-- A word side is even (R65). -/
theorem wordMemoryOk_iff (control : Byte) (a : Long) :
    wordMemoryOk (widthOf control) a = true ↔ a.toNat % bytesOf control = 0 := by
  unfold wordMemoryOk widthOf bytesOf
  cases control.getLsbD 2
  · simp [Nat.mod_one]
  · simp [← getLsbD_zero_eq_false]

/-- A memory side of at least one beat (R65, R66). -/
theorem memorySideOk_iff {n : Word} (hn : 1 ≤ n.toNat) (top : Nat) (control : Byte) (a : Long) :
    memorySideOk top (widthOf control) a n = true ↔
      a.toNat % bytesOf control = 0 ∧ a.toNat + n.toNat * bytesOf control - 1 ≤ top := by
  have hpos : 1 ≤ n.toNat * bytesOf control := Nat.mul_pos hn (bytesOf_pos control)
  unfold memorySideOk rangeOk
  rw [Bool.and_eq_true, wordMemoryOk_iff, Bool.and_eq_true, decide_eq_true_eq, decide_eq_true_eq, widthOf_bytes]
  omega

/-- A port side (R65). -/
theorem portSideOk_iff (control : Byte) (p : Long) :
    portSideOk (widthOf control) p = true ↔ p.toNat ≤ 0xFF ∧ p.toNat % bytesOf control = 0 := by
  unfold portSideOk portFieldOk wordPortOk
  rw [Bool.and_eq_true, decide_eq_true_eq]
  exact and_congr_right fun _ => wordMemoryOk_iff control p

/-- The sides of an element with at least one beat to make, by its kind (R65, R66). -/
theorem sidesOk_iff {e : Element} (hn : 1 ≤ e.remaining.toNat) (top : Nat) :
    let memory (a : Long) : Prop := a.toNat % bytesOf e.control = 0 ∧ a.toNat + e.remaining.toNat * bytesOf e.control - 1 ≤ top
    let port (p : Long) : Prop := p.toNat ≤ 0xFF ∧ p.toNat % bytesOf e.control = 0
    e.sidesOk top = true ↔
      (e.control.toNat % 4 ≠ 3 → if e.control.toNat % 4 = 1 then port e.source else memory e.source)
      ∧ (if e.control.toNat % 4 = 2 then port e.dest else memory e.dest) := by
  intro memory port
  have hmem (a : Long) : memorySideOk top (widthOf e.control) a e.remaining = true ↔ memory a := memorySideOk_iff hn top _ a
  have hport (p : Long) : portSideOk (widthOf e.control) p = true ↔ port p := portSideOk_iff _ p
  have h4 : e.control.toNat % 4 < 4 := Nat.mod_lt _ (by omega)
  unfold Element.sidesOk
  dsimp only
  rw [kindOf_nat]
  generalize e.control.toNat % 4 = k at h4 ⊢
  interval_cases k <;> simp [hmem, hport]

/-- The checks that do not depend on the kind, and the sides (R65, R75). -/
theorem formatOk_iff (who : Server) (d : Descriptor) :
    d.formatOk who = true ↔
      (d.control.toNat / 64 = 0 ∧ (who ≠ .urgent → d.control.getLsbD 5 = false) ∧ 1 ≤ d.count.toNat
        ∧ (d.control.getLsbD 3 = true ∨ (d.next.toNat % 16 = 0 ∧ d.next.toNat + 15 ≤ spaceTop who)))
      ∧ d.element.sidesOk (spaceTop who) = true := by
  have hc := d.control.isLt
  have hreserved : (d.control.extractLsb' 6 2 == 0) = true ↔ d.control.toNat / 64 = 0 := by
    rw [beq_iff_eq, ← BitVec.toNat_inj, field_toNat]
    change d.control.toNat / 2 ^ 6 % 2 ^ 2 = 0 ↔ _
    omega
  have hhold : (who == .urgent || !isHold d.control) = true ↔ (who ≠ .urgent → d.control.getLsbD 5 = false) := by
    simp [isHold, or_iff_not_imp_left]
  have hcount : (d.count != 0) = true ↔ 1 ≤ d.count.toNat := by
    rw [bne_iff_ne, Ne, ← BitVec.toNat_inj]
    change ¬ d.count.toNat = 0 ↔ _
    omega
  have hnext : (isEnd d.control || descAddrOk who d.next) = true ↔
      (d.control.getLsbD 3 = true ∨ (d.next.toNat % 16 = 0 ∧ d.next.toNat + 15 ≤ spaceTop who)) := by
    simp [isEnd, descAddrOk]
  unfold Descriptor.formatOk
  rw [Bool.and_eq_true, Bool.and_eq_true, Bool.and_eq_true, Bool.and_eq_true, hreserved, hhold, hcount, hnext]
  tauto

/-- Settles O44: the checks are those of the sides of the kind, and the common ones. -/
theorem descriptorChecksInNumbers : Obligations.DescriptorChecksInNumbers := by
  intro who d top w common memory port
  have htop : spaceTop who = top := by cases who <;> rfl
  have hmax : 15 ≤ top := by cases who <;> exact Nat.le_of_ble_eq_true rfl
  have hformat : d.formatOk who = true ↔ common ∧ d.element.sidesOk top = true := by
    rw [formatOk_iff, htop]
    refine and_congr_left fun _ => and_congr_right fun _ => and_congr_right fun _ => and_congr_right fun _ =>
      or_congr_right (and_congr_right fun _ => ?_)
    omega
  have hsides (hc : common) : d.element.sidesOk top = true ↔
      (d.control.toNat % 4 ≠ 3 → if d.control.toNat % 4 = 1 then port d.source else memory d.source)
      ∧ (if d.control.toNat % 4 = 2 then port d.dest else memory d.dest) := by
    obtain ⟨-, -, hcount, -⟩ := hc
    exact sidesOk_iff hcount top
  rw [hformat]
  refine ⟨fun hk => ?_, fun hk => ?_, fun hk => ?_, fun hk => ?_⟩ <;>
    exact and_congr_right fun hc => (hsides hc).trans (by simp [hk])

end Sys2Proof.Machine
end

section
/-! SUPPORT. The words of a fetch, and the proof of `Obligations.FetchLoadsTheDescriptor`. -/

namespace Sys2Proof.Machine

/-! ### The end of a word's read (R64) -/

section FetchRead

variable {g : State} {a : Access} (sd : Word) (hw : a.width = .word)

include hw

theorem fetchReadEnd_goesOn (h : g.engine.fetched.length < 7) : g.fetchReadEnd a (.ready sd) =
    State.fetchNext { g with engine := { g.engine with fetched := g.engine.fetched ++ [sd] } } := by
  unfold State.fetchReadEnd
  dsimp only
  rw [taken_word hw, if_neg]
  · rfl
  · change ¬ (g.engine.fetched ++ [sd]).length = 8
    rw [List.length_append, List.length_singleton]
    omega

theorem fetchReadEnd_done (h : g.engine.fetched.length = 7) : g.fetchReadEnd a (.ready sd) =
    State.fetchDone { g with engine := { g.engine with fetched := g.engine.fetched ++ [sd] } } := by
  unfold State.fetchReadEnd
  dsimp only
  rw [taken_word hw, if_pos]
  · rfl
  · change (g.engine.fetched ++ [sd]).length = 8
    rw [List.length_append, List.length_singleton, h]

end FetchRead

/-! ### The next word -/

theorem fetchNext_urgent {g : State} (hs : g.engine.server = .urgent) : g.fetchNext = g.handOver .engine
    (readWord (physicalOf g.urgent.u.position + BitVec.ofNat 24 (2 * g.engine.fetched.length))) := by
  unfold State.fetchNext State.descriptorAddr
  simp only [hs]

section FetchNext

variable {g : State} {c : ChannelId} (hs : g.engine.server = .channel c)

include hs

theorem fetchVaddr_channel : g.fetchVaddr =
    g.channels[c].descriptor.extractLsb' 0 22 + BitVec.ofNat 22 (2 * g.engine.fetched.length) := by
  unfold State.fetchVaddr State.descriptorAddr
  simp only [hs]
  rfl

theorem fetchNext_channel {v : VAddr} (hv : g.fetchVaddr = v) : g.fetchNext =
    (g.translate g.channels[c].domain v .fetch).2.fetchAnswer (g.translate g.channels[c].domain v .fetch).1 := by
  unfold State.fetchNext
  simp only [hs, servedDomain_served hs, hv]

variable {v : VAddr} (hv : g.fetchVaddr = v)

include hv

theorem fetchNext_hit {w : Fin 4} (h : hitWay g.cache[setOf (vpnOf v)] g.channels[c].domain (vpnOf v) = some w) :
    g.fetchNext = (g.touch (setOf (vpnOf v)) w).handOver .engine
      (readWord (g.cache[setOf (vpnOf v)][w].frame ++ v.extractLsb' 0 11)) := by
  rw [fetchNext_channel hs hv, translate_read h (by decide)]
  rfl

theorem fetchNext_miss (hservice : g.engine.service ≠ .none) (hr : g.window.resetting = false)
    (h : hitWay g.cache[setOf (vpnOf v)] g.channels[c].domain (vpnOf v) = none) :
    AsksWalker (.next g.fetchNext.settleBus) true g c v .fetch := by
  rw [fetchNext_channel hs hv, translate_miss h]
  exact requestWalk_asks (K := State.fetchAnswer) hs hservice hr (fun _ => rfl) (fun _ => rfl) true v .fetch

end FetchNext

/-! ### The eighth word (R65, R67) -/

section FetchDone

variable {g : State} {d : Descriptor} (hd : descriptorOf g.engine.fetched = d)

include hd

theorem fetchDone_loads {c : ChannelId} (hs : g.engine.server = .channel c) (h : d.formatOk (.channel c) = true) :
    g.fetchDone = (g.modChannel c (fun x => x.load d)).endService c .ready := by
  unfold State.fetchDone
  simp only [hd, hs, h, if_true]

theorem fetchDone_urgent (hs : g.engine.server = .urgent) (h : d.formatOk .urgent = true) :
    g.fetchDone = (g.modU (fun x => x.load d)).moveBegin .urgent := by
  unfold State.fetchDone
  simp only [hd, hs, h, if_true]

theorem fetchDone_fails (h : d.formatOk g.engine.server = false) :
    g.fetchDone = g.failAction .descFormat .fetch (virtualOf g.descriptorAddr) := by
  unfold State.fetchDone
  rw [hd]
  exact if_neg (Bool.eq_false_iff.mp h)

end FetchDone

/-- What a service leaves of a context that it has just loaded. -/
theorem endService_load (g : State) (c : ChannelId) (f : Channel → Channel) (st : ChannelState) :
    (g.modChannel c f).endService c st = { g with
      channels := g.channels.set c ((f g.channels[c]).afterService st), engine := Engine.free } := by
  have hself : (g.modChannel c f).channels[c] = f g.channels[c] := setChannel_self g c _
  rw [endService_eq, hself, State.modChannel, State.setChannel_channels, Vector.set_set]
  rfl

/-- U's move service begins with its first beat where it has one to make (R118, R146). -/
theorem moveBegin_urgent {g : State} (hr : g.urgent.u.remaining ≠ 0) : g.moveBegin .urgent = { g with
    engine := urgentBeatEngine { Engine.free with service := .move, server := .urgent } g.urgent.u.element
    sbi := g.sbi.handOver .engine (urgentBeatAccess g.urgent.u.element) } := by
  have hbeat : (g.startService .urgent .move).nextBeat = (g.startService .urgent .move).beginBeat := if_neg hr
  unfold State.moveBegin
  rw [hbeat, beginBeat_urgent rfl]
  rfl

/-- Settles O43: the read that ends leaves its word, and the fetch asks for the next or is done. -/
theorem fetchLoadsTheDescriptor : Obligations.FetchLoadsTheDescriptor := by
  intro s a sd h hw hv kept
  let g : State := { s with sbi := s.sbi.ended, engine := kept }
  have hrow := exec_fetchReadEnd h hv (.ready sd)
  have hnext (hlt : s.engine.fetched.length < 7) :
      exec (.fetchReadEnd (.ready sd)) s = .next g.fetchNext.settleBus :=
    hrow.trans (congrArg (fun x => Host.Outcome.next (State.settleBus x))
      (fetchReadEnd_goesOn (g := { s with sbi := s.sbi.ended }) sd hw hlt))
  have hdone (hlt : s.engine.fetched.length = 7) :
      exec (.fetchReadEnd (.ready sd)) s = .next g.fetchDone.settleBus :=
    hrow.trans (congrArg (fun x => Host.Outcome.next (State.settleBus x))
      (fetchReadEnd_done (g := { s with sbi := s.sbi.ended }) sd hw hlt))
  obtain ⟨-, hr, -⟩ := h
  have hservice : g.engine.service ≠ .none := by
    change s.engine.service ≠ .none
    rw [hv]
    nofun
  have hlength : g.engine.fetched.length = s.engine.fetched.length + 1 := List.length_append
  refine ⟨?urgentNext, ?channelNext, ?done⟩
  case urgentNext =>
    intro hs hlt
    rw [hnext hlt, fetchNext_urgent (g := g) hs, settleBus_handOver, hlength]
    exact ⟨_, _, rfl, rfl, rfl⟩
  case channelNext =>
    intro c hs hlt d v
    have hg : g.fetchVaddr = v := by rw [fetchVaddr_channel (g := g) hs, hlength]
    refine ⟨fun w hhit => ?_, fun hmiss => ?_⟩
    · rw [hnext hlt, fetchNext_hit (g := g) hs hg hhit, settleBus_handOver]
      rfl
    · obtain ⟨hnormal, hother⟩ := fetchNext_miss (g := g) hs hg hservice hr hmiss
      exact ⟨fun hm => (hnext hlt).trans (hnormal hm), fun hm => (hnext hlt).trans (hother hm)⟩
  case done =>
    intro w0 w1 w2 w3 w4 w5 w6 hf d
    have hrow := hdone (congrArg List.length hf)
    have hd : descriptorOf g.engine.fetched = d := by
      change descriptorOf (s.engine.fetched ++ [sd]) = d
      rw [hf]
      rfl
    refine ⟨fun c hs => ⟨fun hok => ?_, fun hbad => ?_⟩, fun hs => ⟨fun hok => ?_, fun hbad => ?_⟩⟩
    · rw [hrow, fetchDone_loads (g := g) hd hs hok, endService_load, settleBus_free rfl]
      rfl
    · rw [fetchDone_fails (g := g) hd (by rw [show g.engine.server = _ from hs]; exact hbad)] at hrow
      obtain ⟨t, ht, hreported, hframe⟩ :=
        failAction_checkFails (g := g) hs true .descFormat .fetch (s.channels[c].descriptor.extractLsb' 0 22)
      have haddr : virtualOf g.descriptorAddr = s.channels[c].descriptor.extractLsb' 0 22 := by
        unfold State.descriptorAddr
        rw [show g.engine.server = _ from hs]
        rfl
      rw [haddr] at hrow
      exact ⟨t, hrow.trans ht, hreported, hframe⟩
    · have hcount : d.count ≠ 0 := fun h0 => by
        have := count_of_formatOk hok
        rw [h0] at this
        exact absurd this (by decide)
      rw [fetchDone_urgent (g := g) hd hs hok, moveBegin_urgent (by exact hcount), settleBus_asked rfl] at hrow
      exact ⟨_, hrow, rfl, rfl⟩
    · rw [hrow, fetchDone_fails (g := g) hd (by rw [show g.engine.server = _ from hs]; exact hbad),
        failAction_held (g := g) hs]
      rfl

end Sys2Proof.Machine
end

section
/-! SUPPORT. How a walk begins, goes on and hands its outcome to the Engine, and the proofs of
`Obligations.WalkStartChecksLimit`, `Obligations.WalkReadsTheTables` and `Obligations.StaleWalkBeginsAgain`. -/

namespace Sys2Proof.Machine

/-! ### What the Engine makes of a walk's outcome (R71, R109, R114, R117) -/

/-- Where a fault in the action of channel `c` is reported: its fault access and address (R71, R114 to R116). -/
def FaultsAt (s : State) (c : ChannelId) (acc : FaultAccess) (addr : BitVec 22) : Prop :=
  let x := s.channels[c]
  let kind := x.control.toNat % 4
  let readSide : Prop := (kind = 0 ∨ kind = 2) ∧ s.engine.readAt = none
  (s.engine.service = .fetch ∧ acc = .fetch
      ∧ addr = x.descriptor.extractLsb' 0 22 + BitVec.ofNat 22 (2 * s.engine.fetched.length))
    ∨ (s.engine.service = .move ∧ readSide ∧ acc = .read ∧ addr = x.source.extractLsb' 0 22)
    ∨ (s.engine.service = .move ∧ ¬ readSide ∧ acc = .write ∧ addr = x.dest.extractLsb' 0 22)
    ∨ (s.engine.service = .writeback ∧ acc = .writeback ∧ addr = x.descriptor.extractLsb' 0 22 + 1)

section EngineAnswer

variable {g : State} {c : ChannelId} (hs : g.engine.server = .channel c)

include hs

/-- In a beat the answer goes to the side that waits for it (R109). -/
theorem engineAnswer_move (hv : g.engine.service = .move) (a : Answer) : g.engineAnswer a =
    if (g.channels[c].control.toNat % 4 = 0 ∨ g.channels[c].control.toNat % 4 = 2) ∧ g.engine.readAt = none
    then g.readSideAnswer a else g.writeSideAnswer a := by
  have hlt : g.channels[c].control.toNat % 4 < 4 := Nat.mod_lt _ (by decide)
  have hkind : kindOf g.element.control = kindOf g.channels[c].control := by rw [element_served hs]; rfl
  unfold State.engineAnswer
  simp only [hv, hkind, kindOf_nat]
  generalize g.channels[c].control.toNat % 4 = k at hlt ⊢
  interval_cases k
  all_goals simp

theorem statusVaddr_channel : g.statusVaddr = g.channels[c].descriptor.extractLsb' 0 22 + 1 := by
  unfold State.statusVaddr State.descriptorAddr
  simp only [hs]
  rfl

theorem engineAnswer_fault {acc : FaultAccess} {addr : BitVec 22} (h : FaultsAt g c acc addr) (k : FaultKind) :
    g.engineAnswer (.fault k) = g.failAction k acc addr := by
  rcases h with ⟨hv, rfl, rfl⟩ | ⟨hv, hread, rfl, rfl⟩ | ⟨hv, hread, rfl, rfl⟩ | ⟨hv, rfl, rfl⟩
  · unfold State.engineAnswer
    simp only [hv]
    rw [← fetchVaddr_channel hs]
    rfl
  · rw [engineAnswer_move hs hv, if_pos hread]
    unfold State.readSideAnswer
    rw [element_served hs]
    rfl
  · rw [engineAnswer_move hs hv, if_neg hread]
    unfold State.writeSideAnswer
    rw [element_served hs]
    rfl
  · unfold State.engineAnswer
    simp only [hv]
    rw [← statusVaddr_channel hs]
    rfl

theorem engineAnswer_declined (hv : g.engine.service ≠ .none) : g.engineAnswer .declined = g.endService c .ready := by
  have hdeclined : g.declineAction = g.endService c .ready := by
    unfold State.declineAction
    simp only [hs]
  rw [← hdeclined]
  cases hservice : g.engine.service with
  | none => exact absurd hservice hv
  | move => rw [engineAnswer_move hs hservice]; split <;> rfl
  | fetch | writeback => unfold State.engineAnswer; simp only [hservice]; rfl

end EngineAnswer

/-! ### The end of a walk (R27, R28, R35, R36) -/

theorem deliverFault_engine {s : State} (h : s.walker.requester = .engine) (k : FaultKind) :
    s.deliverFault k = s.endWalk.engineAnswer (.fault k) := by
  unfold State.deliverFault
  simp only [h]

theorem deliverFault_probe {s : State} (h : s.walker.requester = .probe) (k : FaultKind) :
    s.deliverFault k = s.endWalk.answerProbe (ProbeResult.empty (probeOutcomeOf k)) := by
  unfold State.deliverFault
  simp only [h]

theorem deliverDeclined_engine {s : State} (h : s.walker.requester = .engine) :
    s.deliverDeclined = s.endWalk.engineAnswer .declined := by
  unfold State.deliverDeclined
  simp only [h]

/-- The Engine's walk ends in a fault: its action fails (R28, R114). -/
theorem deliverFault_checkFails {g : State} {c : ChannelId} {acc : FaultAccess} {addr : BitVec 22}
    (hr : g.walker.requester = .engine) (hs : g.engine.server = .channel c) (h : FaultsAt g c acc addr) (k : FaultKind) :
    CheckFails (.next (g.deliverFault k).settleBus) true g.endWalk c k acc addr := by
  rw [deliverFault_engine hr, engineAnswer_fault (g := g.endWalk) hs h]
  exact failAction_checkFails (g := g.endWalk) hs true k acc addr

/-! ### The start of a walk (R20, R21, R34) -/

section TakeRequest

variable {s : State} {r : WalkRequest}

theorem takeRequest_engine (h : s.walker.engineWaiting = some r) : s.takeRequest =
    ({ s with walker := { s.walker with engineWaiting := none } } : State).startWalk .engine r := by
  unfold State.takeRequest
  simp only [h]
  rfl

theorem takeRequest_probe (hn : s.walker.engineWaiting = none) (h : s.walker.probeWaiting = some r) : s.takeRequest =
    ({ s with walker := { s.walker with probeWaiting := none } } : State).startWalk .probe r := by
  unfold State.takeRequest State.modWalker
  simp only [hn, h]

theorem exec_walkStart (hrun : s.Running) (hi : s.walker.state = .idle) (hm : s.urgent.mode = .normal)
    (hr : s.window.resetting = false) : exec .walkStart s = .next s.takeRequest.settleBus := by
  have hmay : s.walkMayStart = true := by
    unfold State.walkMayStart Walker.busy
    rw [hi, hm, hr]
    rfl
  refine congrArg Host.Outcome.next ((unlessReset_running hrun).trans ?_)
  rw [if_pos hmay]

end TakeRequest

section StartWalk

variable (g : State) (q : Requester) {r : WalkRequest}

theorem startWalk_within (h : vpnOf r.vaddr ≤ g.domains[r.domain].pageLimit) : g.startWalk q r =
    State.handOver { g with walker := startedWalk g.walker g.domains[r.domain] q r } .walker
      (readWord (dirEntryAddr g.domains[r.domain].dirBase r.vaddr)) :=
  (startWalk_eq g q r).trans (if_neg (BitVec.not_lt.mpr h))

theorem startWalk_over (h : g.domains[r.domain].pageLimit < vpnOf r.vaddr) : g.startWalk q r =
    State.deliverFault { g with walker := startedWalk g.walker g.domains[r.domain] q r } .overLimit :=
  (startWalk_eq g q r).trans (if_pos h)

end StartWalk

/-- Settles O26: the walker takes the request and the page limit decides, before any access. -/
theorem walkStartChecksLimit : Obligations.WalkStartChecksLimit := by
  intro s q r hrun hi hm hr hq d
  obtain ⟨w, htake, hwe, hwp⟩ : ∃ w : Walker, s.takeRequest = ({ s with walker := w } : State).startWalk q r
      ∧ w.engineWaiting = none ∧ w.probeWaiting = if q = .engine then s.walker.probeWaiting else none := by
    rcases hq with ⟨rfl, hw⟩ | ⟨rfl, hn, hw⟩
    · exact ⟨_, takeRequest_engine hw, rfl, rfl⟩
    · exact ⟨_, takeRequest_probe hn hw, hn, rfl⟩
  have hrow : exec .walkStart s = .next (({ s with walker := w } : State).startWalk q r).settleBus := by
    rw [exec_walkStart hrun hi hm hr, htake]
  refine ⟨fun hle => ?within, fun hlt hprobe => ?probe, fun hlt hengine c acc addr hs => ?engine⟩
  case within =>
    rw [startWalk_within _ q (by exact hle), settleBus_handOver] at hrow
    exact ⟨_, dirEntryAddr d.dirBase r.vaddr, hrow, rfl, rfl, rfl, rfl, rfl, rfl, rfl, rfl, rfl, rfl, rfl, hwe, hwp,
      dirEntryAddr_toNat _ _, rfl⟩
  case probe =>
    rcases hq with ⟨rfl, -⟩ | ⟨-, hn, -⟩
    · cases hprobe
    rw [if_neg (by rw [hprobe]; nofun)] at hwp
    rw [startWalk_over _ q (by exact hlt), deliverFault_probe (by exact hprobe), settleBus_unasked (by exact hwe)] at hrow
    exact ⟨_, hrow, rfl, rfl, hwe.trans hn.symm, hwp, rfl⟩
  case engine =>
    intro x kind readSide hat
    rw [if_pos hengine] at hwp
    rw [startWalk_over _ q (by exact hlt)] at hrow
    obtain ⟨t, ht, hreported, hframe⟩ := deliverFault_checkFails
      (g := { s with walker := startedWalk w s.domains[r.domain] q r }) hengine hs hat .overLimit
    refine ⟨t, hrow.trans ht, ?_, ?_, ?_, ?_, hreported, ?_⟩
    all_goals rw [hframe]
    · rfl
    · rfl
    · exact hwe
    · exact hwp
    · rfl

/-! ### The end of an access of the walker (R22, R23, R32) -/

section WalkAccess

variable {s : State} {a : Access}

theorem exec_walkAccessEnd (h : s.Carrying .walker a) (e : BusEnd) : exec (.walkAccessEnd e) s =
    .next (State.walkAccessEnd { s with sbi := s.sbi.ended } a e).settleBus :=
  congrArg Host.Outcome.next (accessEnd_carried h rfl _)

variable (hstale : s.walker.stale = false) (hw : a.width = .word) (sd : Word)

include hstale in
theorem walkAccessEnd_busError : s.walkAccessEnd a .busError = s.deliverFault .busError :=
  if_neg (Bool.eq_false_iff.mp hstale)

include hstale in
theorem walkAccessEnd_pageUpdate (hst : s.walker.state = .pageUpdate) :
    s.walkAccessEnd a (.ready sd) = s.deliver (s.walker.setsWritten || s.walker.pageLow.getLsbD 3) := by
  unfold State.walkAccessEnd
  rw [if_neg (Bool.eq_false_iff.mp hstale), hst]

include hstale hw

theorem walkAccessEnd_dirRead (hst : s.walker.state = .dirRead) : s.walkAccessEnd a (.ready sd) = s.dirWord sd := by
  unfold State.walkAccessEnd
  rw [if_neg (Bool.eq_false_iff.mp hstale), hst]
  exact congrArg s.dirWord (taken_word hw sd)

theorem walkAccessEnd_pageRead (hst : s.walker.state = .pageRead) : s.walkAccessEnd a (.ready sd) = s.pageWord sd := by
  unfold State.walkAccessEnd
  rw [if_neg (Bool.eq_false_iff.mp hstale), hst]
  exact congrArg s.pageWord (taken_word hw sd)

end WalkAccess

section WalkAgain

variable {s : State} (hstale : s.walker.stale = true) (a : Access) (e : BusEnd)

include hstale

theorem walkAccessEnd_again (hm : s.urgent.mode = .normal) :
    s.walkAccessEnd a e = s.startWalk s.walker.requester s.walker.request := (if_pos hstale).trans (if_pos hm)

theorem walkAccessEnd_dropped (hm : s.urgent.mode ≠ .normal) : s.walkAccessEnd a e = s.deliverDeclined :=
  (if_pos hstale).trans (if_neg hm)

end WalkAgain

/-- Settles O29: the result is dropped; the walk starts again in NORMAL, and its service ends READY in any other mode. -/
theorem staleWalkBeginsAgain : Obligations.StaleWalkBeginsAgain := by
  intro s a e h hstale r d
  have hrow := exec_walkAccessEnd h e
  refine ⟨fun hm hle => ?again, fun hm hq c hs hv => ?dropped⟩
  case again =>
    rw [walkAccessEnd_again (by exact hstale) a e (by exact hm), startWalk_within _ _ (by exact hle), settleBus_handOver]
      at hrow
    exact ⟨_, dirEntryAddr d.dirBase r.vaddr, hrow, rfl, rfl, rfl, rfl, rfl, rfl, rfl, rfl, rfl, rfl, rfl, rfl, rfl,
      dirEntryAddr_toNat _ _, rfl⟩
  case dropped =>
    rw [walkAccessEnd_dropped (by exact hstale) a e (by exact hm), deliverDeclined_engine (by exact hq),
      engineAnswer_declined (by exact hs) (by exact hv), endService_eq, settleBus_free rfl] at hrow
    exact ⟨_, hrow, rfl, rfl, rfl, rfl, rfl⟩

/-! ### The words of the tables (R22 to R25) -/

section DirWord

variable {g : State} (sd : Word)

theorem dirWord_first (h : g.walker.second = false) : g.dirWord sd = State.handOver { g with
      walker := { g.walker with second := true, dirPresent := sd.getLsbD 0, tableBase := 0#8 ++ sd.extractLsb' 8 8 } }
    .walker (readWord (dirEntryAddr g.walker.dirBase g.walker.request.vaddr + 2)) := if_neg (Bool.eq_false_iff.mp h)

variable (h : g.walker.second = true)

include h

theorem dirWord_present (hp : g.walker.dirPresent = true) : g.dirWord sd = State.handOver { g with
      walker := { g.walker with
        state := .pageRead, second := false,
        tableBase := sd.extractLsb' 0 8 ++ g.walker.tableBase.extractLsb' 0 8 } }
    .walker (readWord (pageEntryAddr (sd.extractLsb' 0 8 ++ g.walker.tableBase.extractLsb' 0 8) g.walker.request.vaddr)) :=
  (if_pos h).trans (if_pos hp)

theorem dirWord_absent (hp : g.walker.dirPresent = false) : g.dirWord sd = State.deliverFault { g with
      walker := { g.walker with tableBase := sd.extractLsb' 0 8 ++ g.walker.tableBase.extractLsb' 0 8 } } .dirAbsent :=
  (if_pos h).trans (if_neg (Bool.eq_false_iff.mp hp))

end DirWord

/-- The frame that the page entry names (R19, R23). -/
def Walker.withFrame (w : Walker) (sd : Word) : Walker :=
  { w with frame := sd.extractLsb' 0 8 ++ w.pageLow.extractLsb' 11 5 }

section PageWord

variable {g : State} (sd : Word)

theorem pageWord_first (h : g.walker.second = false) : g.pageWord sd =
    State.handOver { g with walker := { g.walker with second := true, pageLow := sd } } .walker
      (readWord (pageEntryAddr g.walker.tableBase g.walker.request.vaddr + 2)) := if_neg (Bool.eq_false_iff.mp h)

variable (h : g.walker.second = true)

include h

theorem pageWord_present (hp : g.walker.pageLow.getLsbD 0 = true) :
    g.pageWord sd = State.walkChecks { g with walker := g.walker.withFrame sd } := (if_pos h).trans (if_pos hp)

theorem pageWord_absent (hp : g.walker.pageLow.getLsbD 0 = false) :
    g.pageWord sd = State.deliverFault { g with walker := g.walker.withFrame sd } .pageAbsent :=
  (if_pos h).trans (if_neg (Bool.eq_false_iff.mp hp))

end PageWord

/-- The walk is for a write or a writeback (R24). -/
abbrev Walker.Writes (w : Walker) : Prop := w.request.access = .write ∨ w.request.access = .writeback

/-- The write check of the walk fails (R24). -/
def Walker.Denied (w : Walker) : Prop := w.Writes ∧ (w.pageLow.getLsbD 1 = false ∨ w.readOnly = true)

/-- The tracking step has a bit to set (R25). -/
def Walker.BitDue (w : Walker) : Prop :=
  (w.trackUsed = true ∧ w.pageLow.getLsbD 2 = false)
    ∨ (w.trackWritten = true ∧ w.Writes ∧ w.pageLow.getLsbD 3 = false)

theorem setsWritten_iff (w : Walker) : w.setsWritten = true ↔ w.trackWritten = true ∧ w.Writes := by
  unfold Walker.setsWritten Walker.Writes
  rw [Bool.and_eq_true, MemAccess.writes_iff]

theorem writesBack_iff (w : Walker) : w.writesBack = true ↔ w.tracking = true ∧ w.BitDue := by
  unfold Walker.writesBack Walker.BitDue
  rw [← and_assoc, ← setsWritten_iff]
  simp only [Bool.and_eq_true, Bool.or_eq_true, Bool.not_eq_true']

theorem backValue_eq (w : Walker) : w.backValue =
    w.pageLow ||| (if w.trackWritten = true ∧ w.Writes then 0x000C#16 else 0x0004#16) := by
  unfold Walker.backValue
  by_cases h : w.setsWritten = true
  · rw [if_pos h, if_pos ((setsWritten_iff w).mp h), BitVec.or_assoc]
    rfl
  · rw [if_neg h, if_neg (mt (setsWritten_iff w).mpr h), BitVec.or_assoc]
    rfl

section WalkChecks

variable {g : State}

theorem walkChecks_denied (h : g.walker.Denied) : g.walkChecks = g.deliverFault .writeDenied :=
  if_pos (And.imp_left (MemAccess.writes_iff _).mpr h)

variable (h : ¬ g.walker.Denied)

include h

theorem walkChecks_back (hb : g.walker.tracking = true ∧ g.walker.BitDue) : g.walkChecks =
    State.handOver { g with walker := { g.walker with state := .pageUpdate } } .walker
      (writeWord (pageEntryAddr g.walker.tableBase g.walker.request.vaddr) g.walker.backValue) :=
  (if_neg (mt (And.imp_left (MemAccess.writes_iff _).mp) h)).trans (if_pos ((writesBack_iff _).mpr hb))

theorem walkChecks_delivers (hb : ¬ (g.walker.tracking = true ∧ g.walker.BitDue)) :
    g.walkChecks = g.deliver (g.walker.pageLow.getLsbD 3) :=
  (if_neg (mt (And.imp_left (MemAccess.writes_iff _).mp) h)).trans (if_neg (mt (writesBack_iff _).mp hb))

end WalkChecks

/-- Settles O27: each word that the walker reads is kept, and names the address of the access that follows. -/
theorem walkReadsTheTables : Obligations.WalkReadsTheTables := by
  intro s a sd h hw hstale w v writes next
  have hrow := exec_walkAccessEnd h (.ready sd)
  refine ⟨fun hst h2 => ?dirFirst, fun hst h2 hp => ?dirSecond, fun hst h2 => ?pageFirst,
    fun hst h2 hp hd ht hb => ?pageBack⟩
  case dirFirst =>
    rw [walkAccessEnd_dirRead (by exact hstale) hw sd (by exact hst), dirWord_first sd (by exact h2), settleBus_handOver]
      at hrow
    exact ⟨_, _, hrow, rfl, dirEntryAddr_second_toNat _ _, rfl⟩
  case dirSecond =>
    rw [walkAccessEnd_dirRead (by exact hstale) hw sd (by exact hst), dirWord_present sd (by exact h2) (by exact hp),
      settleBus_handOver] at hrow
    exact ⟨_, _, hrow, rfl, pageEntryAddr_toNat _ _, rfl⟩
  case pageFirst =>
    rw [walkAccessEnd_pageRead (by exact hstale) hw sd (by exact hst), pageWord_first sd (by exact h2), settleBus_handOver]
      at hrow
    exact ⟨_, _, hrow, rfl, pageEntryAddr_second_toNat _ _, rfl⟩
  case pageBack =>
    rw [walkAccessEnd_pageRead (by exact hstale) hw sd (by exact hst), pageWord_present sd (by exact h2) (by exact hp),
      walkChecks_back (by exact hd) (by exact ⟨ht, hb⟩), settleBus_handOver] at hrow
    refine ⟨_, pageEntryAddr w.tableBase v, hrow, ?_, pageEntryAddr_toNat _ _, rfl⟩
    rw [← show w.backValue = w.pageLow ||| (if w.trackWritten = true ∧ writes then 0x000C#16 else 0x0004#16) from
      backValue_eq w]
    rfl

end Sys2Proof.Machine
end

section
/-! SUPPORT. The outcomes of a walk, and the proof of `Obligations.WalkEndsInItsOutcome` (R24, R25, R27 to R29, R57). -/

namespace Sys2Proof.Machine

/-- The part as a walk's last access has ended: the walker holds what that access left of the tables. -/
abbrev State.walked (s : State) (b : BitVec 16) (f : Frame) : State :=
  { s with sbi := s.sbi.ended, walker := { s.walker with tableBase := b, frame := f } }

/-- The walk ends in fault `k` as an access ends in `e`, its word being `sd` (R22 to R24, R29). -/
def Walker.Fails (w : Walker) (sd : Word) (e : BusEnd) (k : FaultKind) : Prop :=
  (e = .busError ∧ k = .busError)
  ∨ (e = .ready sd ∧ w.second = true
    ∧ ((w.state = .dirRead ∧ w.dirPresent = false ∧ k = .dirAbsent)
      ∨ (w.state = .pageRead ∧ w.pageLow.getLsbD 0 = false ∧ k = .pageAbsent)
      ∨ (w.state = .pageRead ∧ w.pageLow.getLsbD 0 = true ∧ w.Denied ∧ k = .writeDenied)))

/-- The walk ends in a translation with frame `f` as its access ends with word `sd` (R25, R27). -/
def Walker.Translates (w : Walker) (sd : Word) (f : Frame) (written : Bool) : Prop :=
  (w.state = .pageRead ∧ w.second = true ∧ w.pageLow.getLsbD 0 = true ∧ ¬ w.Denied ∧ ¬ (w.tracking = true ∧ w.BitDue)
    ∧ f = sd.extractLsb' 0 8 ++ w.pageLow.extractLsb' 11 5 ∧ written = w.pageLow.getLsbD 3)
  ∨ (w.state = .pageUpdate ∧ f = w.frame
    ∧ written = ((w.trackWritten && (w.request.access == .write || w.request.access == .writeback)) || w.pageLow.getLsbD 3))

theorem Walker.Fails.ne_overLimit {w : Walker} {sd : Word} {e : BusEnd} {k : FaultKind} (h : w.Fails sd e k) :
    k ≠ .overLimit := by
  rcases h with ⟨-, rfl⟩ | ⟨-, -, ⟨-, -, rfl⟩ | ⟨-, -, rfl⟩ | ⟨-, -, -, rfl⟩⟩
  all_goals decide

theorem setsWritten_eq (w : Walker) : w.setsWritten =
    (w.trackWritten && (w.request.access == .write || w.request.access == .writeback)) := by
  unfold Walker.setsWritten
  cases w.request.access <;> rfl

section WalkEnds

variable {s : State} {a : Access} (hstale : s.walker.stale = false) (hw : a.width = .word) {sd : Word}

include hstale hw

theorem walkAccessEnd_fails {e : BusEnd} {k : FaultKind} (h : s.walker.Fails sd e k) :
    ∃ b f, State.walkAccessEnd { s with sbi := s.sbi.ended } a e = (s.walked b f).deliverFault k := by
  rcases h with ⟨rfl, rfl⟩ | ⟨rfl, h2, ⟨hst, hp, rfl⟩ | ⟨hst, hp, rfl⟩ | ⟨hst, hp, hd, rfl⟩⟩
  · exact ⟨_, _, walkAccessEnd_busError (by exact hstale)⟩
  · rw [walkAccessEnd_dirRead (by exact hstale) hw sd (by exact hst), dirWord_absent sd (by exact h2) (by exact hp)]
    exact ⟨_, _, rfl⟩
  · rw [walkAccessEnd_pageRead (by exact hstale) hw sd (by exact hst), pageWord_absent sd (by exact h2) (by exact hp)]
    exact ⟨_, _, rfl⟩
  · rw [walkAccessEnd_pageRead (by exact hstale) hw sd (by exact hst), pageWord_present sd (by exact h2) (by exact hp),
      walkChecks_denied (by exact hd)]
    exact ⟨_, _, rfl⟩

theorem walkAccessEnd_delivers {f : Frame} {written : Bool} (h : s.walker.Translates sd f written) : ∃ b,
    State.walkAccessEnd { s with sbi := s.sbi.ended } a (.ready sd) = (s.walked b f).deliver written := by
  rcases h with ⟨hst, h2, hp, hd, hdue, rfl, rfl⟩ | ⟨hst, rfl, rfl⟩
  · rw [walkAccessEnd_pageRead (by exact hstale) hw sd (by exact hst), pageWord_present sd (by exact h2) (by exact hp),
      walkChecks_delivers (by exact hd) (by exact hdue)]
    exact ⟨_, rfl⟩
  · rw [walkAccessEnd_pageUpdate (by exact hstale) sd (by exact hst), setsWritten_eq]
    exact ⟨_, rfl⟩

end WalkEnds

theorem deliver_engine {s : State} (h : s.walker.requester = .engine) (written : Bool) : s.deliver written =
    (s.endWalk.install (s.walker.translation written)).engineAnswer
      (.translated (s.walker.frame ++ s.walker.request.vaddr.extractLsb' 0 11)) := by
  unfold State.deliver
  simp only [h]
  rfl

theorem deliver_probe {s : State} (h : s.walker.requester = .probe) (written : Bool) : s.deliver written =
    s.endWalk.answerProbe
      { outcome := .translated, address := s.walker.frame ++ s.walker.request.vaddr.extractLsb' 0 11, hit := false,
        writable := s.walker.pageLow.getLsbD 1 && !s.walker.readOnly, writtenKnown := written } := by
  unfold State.deliver
  simp only [h]
  rfl

/-- The Engine's action that had asked goes on with its physical address, outside a beat (R64, R70). -/
theorem engineAnswer_fetch {g : State} (hv : g.engine.service = .fetch) (p : PAddr) :
    g.engineAnswer (.translated p) = g.handOver .engine (readWord p) := by
  unfold State.engineAnswer
  simp only [hv]
  rfl

theorem engineAnswer_writeback {g : State} (hv : g.engine.service = .writeback) (p : PAddr) :
    g.engineAnswer (.translated p) = g.handOver .engine (writeByte p g.statusByte) := by
  unfold State.engineAnswer
  simp only [hv]
  rfl

/-- The status byte of a channel, and its write (R70). -/
theorem statusByte_channel {g : State} {c : ChannelId} (hs : g.engine.server = .channel c) :
    g.statusByte = g.channels[c].code.bits.setWidth 8 := by
  unfold State.statusByte
  simp only [hs]

theorem writeByte_code (p : PAddr) (code : WritebackCode) : writeByte p (code.bits.setWidth 8) =
    { space := .memory, width := .byte, address := p
      write := some (match code with | .complete => 1 | .skipped => 2) } := by
  cases code <;> rfl

/-- Settles O28: a probe is answered, an Engine's walk is installed and its action goes on or fails. -/
theorem walkEndsInItsOutcome : Obligations.WalkEndsInItsOutcome := by
  intro s a sd h hw hstale w frame writes denied due rests answered failing translating
  have hanswer (b : BitVec 16) (f : Frame) (r : ProbeResult) :
      answered ((s.walked b f).endWalk.answerProbe r).settleBus r := by
    simp only [answered, rests, State.settleBus_walker]
    exact ⟨⟨rfl, rfl, rfl, rfl⟩, rfl⟩
  refine ⟨fun hq => ⟨fun e k hf => ?probeFails, fun hst h2 hp hd ht => ?probeTranslated⟩,
    fun hq => ⟨fun f written hf => ?translated, fun e k c acc addr hf hs => ?fails⟩⟩
  case probeFails =>
    obtain ⟨b, f, hend⟩ := walkAccessEnd_fails hstale hw (sd := sd) (by exact hf)
    have hrow := exec_walkAccessEnd h e
    rw [hend, deliverFault_probe (by exact hq)] at hrow
    have hk := Walker.Fails.ne_overLimit (by exact hf)
    refine ⟨_, hrow, ?_⟩
    cases k
    case overLimit => exact absurd rfl hk
    all_goals exact hanswer b f _
  case probeTranslated =>
    obtain ⟨b, hend⟩ := walkAccessEnd_delivers hstale hw (sd := sd) (by
      exact .inl ⟨hst, h2, hp, hd, fun hdue => Bool.false_ne_true (ht.symm.trans hdue.1), rfl, rfl⟩)
    have hrow := exec_walkAccessEnd h (.ready sd)
    rw [hend, deliver_probe (by exact hq)] at hrow
    exact ⟨_, hrow, hanswer b frame _⟩
  case translated =>
    intro p
    obtain ⟨b, hend⟩ := walkAccessEnd_delivers hstale hw (sd := sd) (by exact hf)
    have hrow := exec_walkAccessEnd h (.ready sd)
    rw [hend, deliver_engine (by exact hq)] at hrow
    let g := (s.walked b f).endWalk.install ((s.walked b f).walker.translation written)
    obtain ⟨-, hr, -⟩ := h
    refine ⟨g, rfl, ⟨rfl, rfl, rfl, rfl⟩, rfl, hrow, fun hv => ?_, fun c hs hv => ?_, fun c hs hv => ⟨fun hk ha => ?_,
      fun hk => ?_⟩⟩
    · rw [hrow, engineAnswer_fetch (by exact hv), settleBus_handOver]
      rfl
    · rw [hrow, engineAnswer_writeback (by exact hv), settleBus_handOver, statusByte_channel (c := c) (by exact hs),
        writeByte_code]
      rfl
    · rw [hrow]
      exact engineAnswer_readSide (g := g) hs hv hr hk ha p
    · rw [hrow]
      exact engineAnswer_writeSide (g := g) hs hv hk p
  case fails =>
    intro x kind readSide hat
    obtain ⟨b, f, hend⟩ := walkAccessEnd_fails hstale hw (sd := sd) (by exact hf)
    have hrow := exec_walkAccessEnd h e
    rw [hend] at hrow
    obtain ⟨t, ht, hreported, hframe⟩ := deliverFault_checkFails (g := s.walked b f) hq hs hat k
    refine ⟨t, hrow.trans ht, ?_, hreported, ?_⟩
    all_goals rw [hframe]
    · exact ⟨rfl, rfl, rfl, rfl⟩
    · rfl

end Sys2Proof.Machine
end

section
/-! SUPPORT. Urgent requests, and the proof of `Obligations.UrgentRequestsActByMode` (R36, R58, R136 to R139). -/

namespace Sys2Proof.Machine

/-! ### What a request declines as the mode leaves NORMAL (R36, R58) -/

/-- The waiting probe is answered ABORTED. -/
def State.probeAborted (t : State) : State := { t with
  walker := { t.walker with probeWaiting := none }
  window := { t.window with
    busy := false, cmdCause := true, probe := { ProbeResult.reset with outcome := .aborted } } }

/-- The Engine's waiting request is declined: the service of channel `c` ends READY. -/
def State.serviceDeclined (t : State) (c : ChannelId) : State := { t with
  walker := { t.walker with engineWaiting := none }, engine := Engine.free, sbi := t.sbi.settle
  channels := t.channels.set c (t.channels[c].afterService .ready) }

section Declines

variable {g : State}

theorem declineWaiting_probe {q : WalkRequest} (he : g.walker.engineWaiting = none) (hp : g.walker.probeWaiting = some q) :
    g.declineWaiting = g.probeAborted := by
  unfold State.declineWaiting
  simp only [he, hp]
  rfl

variable {r : WalkRequest} {c : ChannelId} (he : g.walker.engineWaiting = some r) (hs : g.engine.server = .channel c)
  (hv : g.engine.service ≠ .none)

include hs hv in
/-- The service that waits for the walk ends, and the bus kept for it settles (R36, R170). -/
theorem engineAnswer_serviceDeclined :
    (State.engineAnswer { g with walker := { g.walker with engineWaiting := none } } .declined).settleBus
      = g.serviceDeclined c := by
  rw [engineAnswer_declined (g := { g with walker := { g.walker with engineWaiting := none } }) hs hv, endService_eq,
    settleBus_free rfl]
  rfl

include he hs hv

theorem declineWaiting_engine (hp : g.walker.probeWaiting = none) : g.declineWaiting = g.serviceDeclined c := by
  unfold State.declineWaiting State.modWalker
  simp only [he, engineAnswer_serviceDeclined hs hv]
  unfold State.serviceDeclined
  simp only [hp]

theorem declineWaiting_both {q : WalkRequest} (hp : g.walker.probeWaiting = some q) :
    g.declineWaiting = (g.serviceDeclined c).probeAborted := by
  unfold State.declineWaiting State.modWalker
  simp only [he, engineAnswer_serviceDeclined hs hv]
  unfold State.serviceDeclined
  simp only [hp]
  rfl

end Declines

/-! ### The request by its mode (R139) -/

/-- The Urgent Controller as a request takes the mode out of NORMAL (R139). -/
def Urgent.entered (u : Urgent) (src : Source) : Urgent := { u with mode := .urgentEntry, step := .drain, entryCause := some src }

section Requests

variable {s : State} (src : Source)

theorem urgentRequest_entered (hm : s.urgent.mode = .normal) :
    s.urgentRequest src = State.declineWaiting { s with urgent := s.urgent.entered src } := by
  unfold State.urgentRequest
  simp only [hm]
  rfl

theorem urgentRequest_locked (hm : s.urgent.mode = .locked) : s.urgentRequest src = s := by
  unfold State.urgentRequest
  simp only [hm]

variable (hm : s.urgent.mode ≠ .normal ∧ s.urgent.mode ≠ .locked)

include hm

theorem urgentRequest_latches (hl : s.urgent.latch = none) :
    s.urgentRequest src = { s with urgent := { s.urgent with latch := some src } } := by
  obtain ⟨hnormal, hlocked⟩ := hm
  unfold State.urgentRequest
  cases hmode : s.urgent.mode
  case normal => exact absurd hmode hnormal
  case locked => exact absurd hmode hlocked
  all_goals simp only [hl]

theorem urgentRequest_latched (hl : s.urgent.latch ≠ none) : s.urgentRequest src = s := by
  obtain ⟨hnormal, hlocked⟩ := hm
  obtain ⟨x, hx⟩ := Option.ne_none_iff_exists'.mp hl
  unfold State.urgentRequest
  cases hmode : s.urgent.mode
  case normal => exact absurd hmode hnormal
  case locked => exact absurd hmode hlocked
  all_goals simp only [hx]

end Requests

section Rows

variable {s : State} (hrun : s.Running)

include hrun

theorem exec_urqRequest_armed (ha : s.urgent.armed = true) (hr : s.window.resetting = false) : exec .urqRequest s =
    .next (State.urgentRequest { s with
      pins := { s.pins with urqHigh := false }, urgent := { s.urgent with armed := false } } .line) :=
  congrArg Host.Outcome.next ((unlessReset_running hrun).trans (if_pos ⟨ha, Bool.eq_false_iff.mp hr⟩))

theorem exec_urqRequest_disarmed (ha : s.urgent.armed = false) :
    exec .urqRequest s = .next { s with pins := { s.pins with urqHigh := false } } :=
  congrArg Host.Outcome.next ((unlessReset_running hrun).trans (if_neg fun h => Bool.false_ne_true (ha.symm.trans h.1)))

end Rows

theorem exec_urgentReq {s : State} (hs : s.TakesCommands) (hi : Byte) :
    exec (.urgentReq hi) s = .next (((s.latch 0x0D).urgentRequest .command).setRes .ok) :=
  exec_taken (s := s) rfl hs rfl

/-- An urgent request by the mode and the walks that wait, as a row with outcome `K` shows it (R36, R58, R139). -/
theorem urgentRequest_byMode (g : State) (src : Source) (K : State → Host.Outcome State Fault Refusal) :
    let entry : State := { g with urgent := g.urgent.entered src }
    let urgentMode := g.urgent.mode ≠ .normal ∧ g.urgent.mode ≠ .locked
    (g.urgent.mode = .normal → g.walker.engineWaiting = none → g.walker.probeWaiting = none →
        K (g.urgentRequest src) = K entry)
    ∧ (∀ q, g.urgent.mode = .normal → g.walker.engineWaiting = none → g.walker.probeWaiting = some q →
        K (g.urgentRequest src) = K entry.probeAborted)
    ∧ (∀ r c, g.urgent.mode = .normal → g.walker.engineWaiting = some r → g.engine.server = .channel c →
        g.engine.service ≠ .none →
      (g.walker.probeWaiting = none → K (g.urgentRequest src) = K (entry.serviceDeclined c))
      ∧ ∀ q, g.walker.probeWaiting = some q → K (g.urgentRequest src) = K (entry.serviceDeclined c).probeAborted)
    ∧ (urgentMode → g.urgent.latch = none →
        K (g.urgentRequest src) = K { g with urgent := { g.urgent with latch := some src } })
    ∧ (urgentMode → g.urgent.latch ≠ none → K (g.urgentRequest src) = K g)
    ∧ (g.urgent.mode = .locked → K (g.urgentRequest src) = K g) := by
  refine ⟨fun hm he hp => ?_, fun q hm he hp => ?_, fun r c hm he hs hv => ⟨fun hp => ?_, fun q hp => ?_⟩,
    fun hm hl => ?_, fun hm hl => ?_, fun hm => ?_⟩
  · rw [urgentRequest_normal hm he hp]
    rfl
  · rw [urgentRequest_entered src hm, declineWaiting_probe (by exact he) (by exact hp)]
  · rw [urgentRequest_entered src hm, declineWaiting_engine (by exact he) (by exact hs) (by exact hv) (by exact hp)]
  · rw [urgentRequest_entered src hm, declineWaiting_both (by exact he) (by exact hs) (by exact hv) (by exact hp)]
  · rw [urgentRequest_latches src hm hl]
  · rw [urgentRequest_latched src hm hl]
  · rw [urgentRequest_locked src hm]

/-- Settles O50: both sources make the same request, on the detector's state or on the latched command. -/
theorem urgentRequestsActByMode : Obligations.UrgentRequestsActByMode := by
  intro hi s hrun low entered urgentMode aborted ended
  refine ⟨fun ha hr => ?line, exec_urqRequest_disarmed hrun, congrArg Host.Outcome.next (unlessReset_running hrun),
    fun hs => ?command⟩
  case line =>
    rw [exec_urqRequest_armed hrun ha hr]
    exact urgentRequest_byMode (low s.urgent) .line Host.Outcome.next
  case command =>
    rw [exec_urgentReq hs hi]
    exact urgentRequest_byMode (s.latch 0x0D) .command fun t => Host.Outcome.next (t.setRes .ok)

end Sys2Proof.Machine
end

section
/-! SUPPORT. The decision before each beat, the end of a beat's write, and the proof of
`Obligations.BeatWriteMovesTheElement` (R95, R108, R113, R118, R146). -/

namespace Sys2Proof.Machine

/-! ### The context that a service leaves (R82, R95) -/

section AfterService

variable {x : Channel} (st : ChannelState)

theorem afterService_quiet (hh : x.pendingHalt = false) (ha : x.pendingAbort = false) :
    x.afterService st = { x with state := st, pendingHalt := false, pendingAbort := false } := by
  unfold Channel.afterService
  rw [ha, hh, if_neg nofun, if_neg (fun h => Bool.false_ne_true h.1)]

theorem afterService_halted (hh : x.pendingHalt = true) (ha : x.pendingAbort = false) :
    x.afterService .ready = { x with state := .halted, pendingHalt := false, pendingAbort := false } := by
  unfold Channel.afterService
  rw [ha, hh, if_neg nofun, if_pos ⟨rfl, .inl rfl⟩]

theorem afterService_aborted (ha : x.pendingAbort = true) : x.afterService st = { x with
    state := .idle, completion := .aborted, held := none, pendingHalt := false, pendingAbort := false } := if_pos ha

end AfterService

/-! ### The decision before a beat (R108) -/

theorem paced_iff (e : Element) : e.paced = true ↔ e.control.toNat % 4 = 1 ∨ e.control.toNat % 4 = 2 := by
  unfold Element.paced
  rw [← kindIngest, ← kindEmit]
  cases kindOf e.control <;> simp

theorem lineLow_iff (g : State) (x : Channel) : g.lineLow x = true ↔
    ∃ n : Fin 8, (x.control.toNat % 4 = 1 ∨ x.control.toNat % 4 = 2) ∧ x.line = some n
      ∧ g.pins.preq.getLsbD n.val = false := by
  unfold State.lineLow
  cases hl : x.line with
  | none => exact ⟨nofun, fun ⟨_, _, h, _⟩ => nomatch h⟩
  | some n =>
    simp only [Bool.and_eq_true, paced_iff, Bool.not_eq_true']
    constructor
    · rintro ⟨hk, hlow⟩
      exact ⟨n, hk, rfl, hlow⟩
    · rintro ⟨m, hk, hm, hlow⟩
      cases hm
      exact ⟨hk, hlow⟩

section NextBeat

variable {g : State} {c : ChannelId} {x : Channel} (hs : g.engine.server = .channel c) (hx : g.channels[c] = x)

include hs hx

/-- The decision of R108, its cases in their order. -/
theorem nextBeat_served : g.nextBeat =
    if x.remaining = 0 then
      (g.modChannel c (fun x => { x with phase := .writeback, code := .complete })).endService c .ready
    else if g.engine.beats ≠ 0 ∧ (x.pendingAbort = true ∨ x.pendingHalt = true) then
      g.endService c .ready
    else if g.engine.beats = x.burst then g.endService c .ready
    else if g.urgent.mode ≠ .normal then g.endService c .ready
    else if g.lineLow x = true then g.endService c .waitReq
    else g.beginBeat := by
  subst hx
  unfold State.nextBeat
  simp only [hs]

theorem nextBeat_last (h : x.remaining = 0) : g.nextBeat =
    (g.modChannel c (fun x => { x with phase := .writeback, code := .complete })).endService c .ready :=
  (nextBeat_served hs hx).trans (if_pos h)

variable (h : x.remaining ≠ 0)

include h

theorem nextBeat_pending (hb : g.engine.beats ≠ 0)
    (hp : x.pendingAbort = true ∨ x.pendingHalt = true) : g.nextBeat = g.endService c .ready := by
  rw [nextBeat_served hs hx, if_neg h, if_pos ⟨hb, hp⟩]

variable (hp : ¬ (g.engine.beats ≠ 0 ∧ (x.pendingAbort = true ∨ x.pendingHalt = true)))

include hp

theorem nextBeat_yields (hb : g.engine.beats = x.burst ∨ g.urgent.mode ≠ .normal) :
    g.nextBeat = g.endService c .ready := by
  rw [nextBeat_served hs hx, if_neg h, if_neg hp]
  rcases hb with hb | hm
  · rw [if_pos hb]
  · rw [if_pos hm, ite_self]

variable (hb : g.engine.beats ≠ x.burst) (hm : g.urgent.mode = .normal)

include hb hm

theorem nextBeat_waits (hl : g.lineLow x = true) : g.nextBeat = g.endService c .waitReq := by
  rw [nextBeat_served hs hx, if_neg h, if_neg hp, if_neg hb, if_neg (not_not.mpr hm), if_pos hl]

theorem nextBeat_begins (hl : g.lineLow x ≠ true) : g.nextBeat = g.beginBeat := by
  rw [nextBeat_served hs hx, if_neg h, if_neg hp, if_neg hb, if_neg (not_not.mpr hm), if_neg hl]

end NextBeat

/-- A channel's beat begins with its checks (R109). -/
theorem beginBeat_channel {g : State} {c : ChannelId} (hs : g.engine.server = .channel c) : g.beginBeat =
    State.checkBeat { g with
      engine := { g.engine with stage := .check, readAt := none, writeAt := none, datum := none } } := by
  unfold State.beginBeat State.modEngine
  simp only [hs]

theorem fillPattern_congr {e f : Element} (hc : e.control = f.control) (hs : e.source = f.source) :
    fillPattern e = fillPattern f := by
  unfold fillPattern
  rw [hc, hs]

/-- A FILL whose destination is at hand issues the write of its pattern (R63, R112). -/
theorem fillBeat_issued {o : Host.Outcome State Fault Refusal} {ends : Bool} {g : State} {c : ChannelId}
    (hbeat : BeatChecked o ends g c) {x : Channel} (hx : g.channels[c] = x) (hk : x.control.toNat % 4 = 3) {v : VAddr}
    (hv : x.dest.extractLsb' 0 22 = v) {w : Fin 4} (hhit : hitWay g.cache[setOf (vpnOf v)] x.domain (vpnOf v) = some w)
    (hw : g.cache[setOf (vpnOf v)][w].writable = true)
    (hknown : g.cache[setOf (vpnOf v)][w].writtenKnown = true ∨ g.domains[x.domain].trackWritten = false) :
    let p : PAddr := g.cache[setOf (vpnOf v)][w].frame ++ v.extractLsb' 0 11
    o = .next { g with
      cache := (g.touch (setOf (vpnOf v)) w).cache
      engine := { g.engine with stage := .write, writeAt := some p, datum := some (fillPattern x.element) }
      sbi := (g.sbi.handOver .engine
        { space := .memory, width := if x.control.getLsbD 2 = true then .word else .byte, address := p,
          write := some (fillPattern x.element) }).goesOn ends } := by
  subst hx hv
  obtain ⟨-, -, hfill⟩ := hbeat
  obtain ⟨hgoes, -, -⟩ := (hfill hk).2 w hhit
  obtain ⟨-, -, hissued⟩ := hgoes fun _ => ⟨hw, hknown⟩
  exact hissued _ hk rfl

/-! ### The end of a beat's write (R62, R113) -/

theorem advance_eq (e : Element) :
    let w : Long := if e.control.getLsbD 2 = true then 2 else 1
    let kind := e.control.toNat % 4
    e.advance = { e with
      remaining := e.remaining - 1
      source := if kind = 0 ∨ kind = 2 then e.source + w else e.source
      dest := if kind = 2 then e.dest else e.dest + w } := by
  have hlt : e.control.toNat % 4 < 4 := Nat.mod_lt _ (by decide)
  have hstep : BitVec.ofNat 32 (widthOf e.control).bytes = if e.control.getLsbD 2 = true then 2 else 1 := by
    unfold widthOf
    split <;> rfl
  unfold Element.advance
  simp only [hstep, kindOf_nat]
  generalize e.control.toNat % 4 = k at hlt ⊢
  interval_cases k
  all_goals rfl

/-- A channel's context with its element a beat further (R113). -/
def Channel.moved (x : Channel) : Channel :=
  let w : Long := if x.control.getLsbD 2 = true then 2 else 1
  let kind := x.control.toNat % 4
  { x with
    remaining := x.remaining - 1
    source := if kind = 0 ∨ kind = 2 then x.source + w else x.source
    dest := if kind = 2 then x.dest else x.dest + w }

/-- U's context with its element a beat further (R113, R118). -/
def UContext.moved (u : UContext) : UContext :=
  let w : Long := if u.control.getLsbD 2 = true then 2 else 1
  let kind := u.control.toNat % 4
  { u with
    remaining := u.remaining - 1
    source := if kind = 0 ∨ kind = 2 then u.source + w else u.source
    dest := if kind = 2 then u.dest else u.dest + w }

section BeatWritten

variable {g : State} (sd : Word)

theorem beatWriteEnd_channel {c : ChannelId} (hs : g.engine.server = .channel c) : g.beatWriteEnd (.ready sd) =
    State.nextBeat { g with
      channels := g.channels.set c g.channels[c].moved
      engine := { g.engine with datum := none, beats := g.engine.beats + 1 } } := by
  unfold State.beatWriteEnd State.putElement State.modEngine
  simp only [hs, element_served hs, advance_eq]
  simp only [State.modChannel, State.setChannel_engine, hs]
  rfl

theorem beatWriteEnd_urgent (hs : g.engine.server = .urgent) : g.beatWriteEnd (.ready sd) =
    State.nextBeat { g with
      urgent := { g.urgent with u := g.urgent.u.moved }, engine := { g.engine with datum := none } } := by
  have helement : g.element = g.urgent.u.element := by
    unfold State.element
    simp only [hs]
  unfold State.beatWriteEnd State.putElement State.modEngine State.modU
  simp only [hs, helement, advance_eq]
  rfl

end BeatWritten

section NextBeatUrgent

variable {g : State} (hs : g.engine.server = .urgent)

include hs

theorem nextBeat_urgentBegins (h : g.urgent.u.remaining ≠ 0) : g.nextBeat = g.beginBeat := by
  unfold State.nextBeat
  simp only [hs]
  exact if_neg h

/-- U's last beat is followed by its writeback, a physical byte write (R76, R118, R146). -/
theorem nextBeat_urgentLast (h : g.urgent.u.remaining = 0) : g.nextBeat = State.handOver { g with
      urgent := { g.urgent with u := { g.urgent.u with phase := .writeback, code := .complete } }
      engine := { Engine.free with service := .writeback, server := .urgent } } .engine
    { space := .memory, width := .byte, address := g.urgent.u.position.extractLsb' 0 24 + 1, write := some 1 } := by
  unfold State.nextBeat
  simp only [hs]
  exact if_pos h

end NextBeatUrgent

/-- A service that ends over a context just written, and the SBI after it (R82, R95, R170). -/
theorem endService_settled {g : State} {c : ChannelId} {l : Vector Channel 8} {y : Channel} (hg : g.channels = l.set c y)
    (st : ChannelState) : (g.endService c st).settleBus = { g with
      channels := l.set c (y.afterService st), engine := Engine.free, sbi := g.sbi.settle } := by
  rw [endService_eq, settleBus_free rfl, hg, set_getElem, if_pos rfl, Vector.set_set]

/-- Settles O46: the element moves on, and the decision before the next beat is taken on it. -/
theorem beatWriteMovesTheElement : Obligations.BeatWriteMovesTheElement := by
  intro s a sd preq h hv hg
  have hrow := exec_beatWriteEnd h hv hg (.ready sd) preq
  obtain ⟨-, hr, -⟩ := h
  refine ⟨?channel, ?urgent⟩
  case channel =>
    intro c hs _ x w kind made y lineLow endsWith goesOn moved
    have hself : moved.channels[c] = y := by rw [set_getElem, if_pos rfl]
    have hnext : exec (.beatWriteEnd (.ready sd) preq) s = .next moved.nextBeat.settleBus :=
      hrow.trans (congrArg (fun t => Host.Outcome.next (State.settleBus t)) (beatWriteEnd_channel sd hs))
    have hended {z : Channel} {st : ChannelState} (h : moved.nextBeat = moved.endService c st)
        (hz : y.afterService st = { z with pendingHalt := false, pendingAbort := false }) : endsWith z := by
      rw [h, endService_settled rfl, hz] at hnext
      exact hnext
    let last : Channel := { y with phase := .writeback, code := .complete }
    have hlast {z : Channel} (h : x.remaining = 1)
        (hz : last.afterService .ready = { z with pendingHalt := false, pendingAbort := false }) : endsWith z := by
      have hzero : y.remaining = 0 := by
        change x.remaining - 1 = 0
        rw [h]
        rfl
      rw [nextBeat_last (g := moved) hs hself hzero, endService_settled (l := s.channels) (y := last)
        (by rw [State.modChannel_channels, hself, Vector.set_set]), hz] at hnext
      exact hnext
    have hmore (h : x.remaining ≠ 1) : y.remaining ≠ 0 := fun h0 => h (by
      change x.remaining - 1 = 0 at h0
      bv_omega)
    have hquiet (h : s.NoPending c) :
        ¬ (moved.engine.beats ≠ 0 ∧ (y.pendingAbort = true ∨ y.pendingHalt = true)) := by
      rintro ⟨-, h' | h'⟩
      · exact Bool.false_ne_true (h.2.symm.trans h')
      · exact Bool.false_ne_true (h.1.symm.trans h')
    let checked : State := { moved with
      engine := { moved.engine with stage := .check, readAt := none, writeAt := none } }
    have hbegins (h : goesOn) : exec (.beatWriteEnd (.ready sd) preq) s = .next moved.beginBeat.settleBus := by
      obtain ⟨h1, hn, hb, hm, hl⟩ := h
      rw [hnext, nextBeat_begins (g := moved) hs hself (hmore h1) (hquiet hn) hb hm (mt (lineLow_iff moved y).mp hl)]
    have hbeat (h : goesOn) : BeatChecked (exec (.beatWriteEnd (.ready sd) preq) s) true checked c := by
      rw [hbegins h, beginBeat_channel (g := moved) hs]
      exact checkBeat_checked (g := checked) hs (ne_of_eq_of_ne hv (by decide)) hr true
    refine ⟨fun h => ⟨fun hn => ?_, fun hh ha => ?_, fun ha => ?_⟩, fun hn h hb => ?_, fun hn h hb hm hl => ?_,
      fun hb h hh ha => ?_, fun hb h ha => ?_, fun h => ⟨hbegins h, hbeat h⟩, fun k h hk hhit hw hknown => ?_⟩
    · exact hlast h (afterService_quiet _ hn.1 hn.2)
    · exact hlast h (afterService_halted hh ha)
    · exact hlast h (afterService_aborted _ ha)
    · exact hended (nextBeat_yields (g := moved) hs hself (hmore h) (hquiet hn) hb) (afterService_quiet _ hn.1 hn.2)
    · exact hended (nextBeat_waits (g := moved) hs hself (hmore h) (hquiet hn) hb hm ((lineLow_iff moved y).mpr hl))
        (afterService_quiet _ hn.1 hn.2)
    · exact hended (nextBeat_pending (g := moved) hs hself (hmore h) hb (.inr hh)) (afterService_halted hh ha)
    · exact hended (nextBeat_pending (g := moved) hs hself (hmore h) hb (.inl ha)) (afterService_aborted _ ha)
    · have hsource : y.source = x.source := if_neg (by rw [hk]; decide)
      have hpattern : fillPattern y.element = fillPattern x.element := fillPattern_congr rfl hsource
      have hissued := fillBeat_issued (g := checked) (hbeat h) hself hk rfl hhit hw hknown
      rw [hpattern] at hissued
      exact hissued
  case urgent =>
    intro hs _ u w kind y
    rw [beatWriteEnd_urgent sd (by exact hs)] at hrow
    refine ⟨fun h => ?_, fun h => ?_⟩
    · have hmore : y.remaining ≠ 0 := fun h0 => h (by
        change u.remaining - 1 = 0 at h0
        bv_omega)
      rw [hrow, nextBeat_urgentBegins (by exact hs) (by exact hmore), beginBeat_urgent (by exact hs), settleBus_asked rfl]
      rfl
    · have hzero : y.remaining = 0 := by
        change u.remaining - 1 = 0
        rw [h]
        rfl
      rw [hrow, nextBeat_urgentLast (by exact hs) (by exact hzero), settleBus_handOver]
      rfl

end Sys2Proof.Machine
end

section
/-! SUPPORT. The Scheduler's choice and what a grant begins, and the proof of
`Obligations.SchedulerGrantsByClassAndTurn` (R84, R102, R103, R107). -/

namespace Sys2Proof.Machine

/-! ### The choice (R103) -/

theorem readyIn_iff (s : State) (p : Fin 4) (c : ChannelId) :
    s.readyIn p c = true ↔ s.channels[c].state = .ready ∧ s.channels[c].priority = p := by
  unfold State.readyIn
  rw [Bool.and_eq_true, beq_iff_eq, beq_iff_eq]

theorem firstIn_none {s : State} {p : Fin 4}
    (h : ∀ n : ChannelId, s.channels[n].state = .ready → s.channels[n].priority ≠ p) :
    s.firstIn p = none := by
  rw [State.firstIn, List.find?_eq_none]
  intro n _ hn
  obtain ⟨hready, hclass⟩ := (readyIn_iff s p n).mp hn
  exact h n hready hclass

/-- The channel that stands at a place of the count from a pointer, and the place of a channel. -/
theorem cyclic_place (ptr n : ChannelId) : ptr + 1 + (n - ptr - 1) = n := by revert ptr n; decide

theorem place_cyclic (ptr k : ChannelId) : ptr + 1 + k - ptr - 1 = k := by revert ptr k; decide

theorem firstIn_some {s : State} {p : Fin 4} {c : ChannelId} (hc : s.channels[c].state = .ready)
    (hp : s.channels[c].priority = p)
    (hfirst : ∀ n : ChannelId, s.channels[n].state = .ready → s.channels[n].priority = p →
      c - s.pointers[p] - 1 ≤ n - s.pointers[p] - 1) : s.firstIn p = some c := by
  have hplace : (List.finRange 8).find? (s.readyIn p ∘ fun k => s.pointers[p] + 1 + k) = some (c - s.pointers[p] - 1) := by
    rw [← Fin.find?_eq_find?_finRange, Fin.find?_eq_some_iff]
    refine ⟨?_, fun k hk => ?_⟩
    · rw [Function.comp_apply, cyclic_place, readyIn_iff]
      exact ⟨hc, hp⟩
    · rw [Function.comp_apply, Bool.eq_false_iff]
      intro hready
      obtain ⟨hstate, hclass⟩ := (readyIn_iff s p _).mp hready
      have hle := hfirst _ hstate hclass
      rw [place_cyclic] at hle
      exact absurd hk (not_lt.mpr hle)
  rw [State.firstIn, cyclicFrom, List.find?_map, allChannels_eq_finRange, hplace, Option.map_some, cyclic_place]

/-- The classes are asked from the highest down. -/
theorem findSome_classes {α : Type} {f : Fin 4 → Option α} {p : Fin 4} {x : α} (hp : f p = some x)
    (habove : ∀ q : Fin 4, p < q → f q = none) : ([3, 2, 1, 0] : List (Fin 4)).findSome? f = some x := by
  rw [List.findSome?_eq_some_iff]
  match p with
  | 3 => exact ⟨[], 3, [2, 1, 0], rfl, hp, by simp⟩
  | 2 => exact ⟨[3], 2, [1, 0], rfl, hp, by simp [habove 3]⟩
  | 1 => exact ⟨[3, 2], 1, [0], rfl, hp, by simp [habove 3, habove 2]⟩
  | 0 => exact ⟨[3, 2, 1], 0, [], rfl, hp, by simp [habove 3, habove 2, habove 1]⟩

theorem grantChoice_some {s : State} {c : ChannelId} (hc : s.channels[c].state = .ready)
    (hclass : ∀ n : ChannelId, s.channels[n].state = .ready → s.channels[n].priority ≤ s.channels[c].priority)
    (hfirst : ∀ n : ChannelId, s.channels[n].state = .ready → s.channels[n].priority = s.channels[c].priority →
      c - s.pointers[s.channels[c].priority] - 1 ≤ n - s.pointers[s.channels[c].priority] - 1) :
    s.grantChoice = some c :=
  findSome_classes (firstIn_some hc rfl hfirst) fun _ hq =>
    firstIn_none fun n hn hclassn => absurd hq (not_lt.mpr (hclassn ▸ hclass n hn))

theorem grantChoice_none {s : State} (h : ∀ n : ChannelId, s.channels[n].state ≠ .ready) : s.grantChoice = none := by
  rw [State.grantChoice, List.findSome?_eq_none_iff]
  exact fun p _ => firstIn_none fun n hn => absurd hn (h n)

theorem grantPossible_iff (s : State) : s.grantPossible = true ↔
    s.engine.service = .none ∧ s.urgent.mode = .normal ∧ s.window.resetting = false := by
  simp [State.grantPossible, and_assoc]

theorem schedule_grants {s : State} {c : ChannelId} (hp : s.grantPossible = true) (hc : s.grantChoice = some c) :
    s.schedule = s.grantTo c := by
  unfold State.schedule
  rw [hp, hc]

theorem schedule_none {s : State} (h : s.grantChoice = none) : s.schedule = s := by
  unfold State.schedule
  rw [h]
  split
  · rename_i hsome
    cases hsome
  · rfl

/-! ### What a service that begins leaves of the other channels -/

theorem Acts.others {s t : State} {c : ChannelId} (h : Acts s t) (hs : s.engine.server = .channel c) :
    t.pointers = s.pointers ∧ ∀ n : ChannelId, n ≠ c → t.channels[n] = s.channels[n] := by
  have same {d : ChannelId} (hd : s.engine.server = .channel d) : d = c := by
    rw [hs] at hd
    cases hd
    rfl
  cases h with
  | goes k => exact ⟨k.pointers, fun n _ => by rw [k.channels]⟩
  | ends d st k hd hst =>
    obtain rfl := same hd
    refine ⟨k.pointers, fun n hn => ?_⟩
    rw [endService_eq, set_getElem, if_neg hn, k.channels]
  | @faults u d f a addr k hd =>
    obtain rfl := same hd
    exact ⟨k.pointers, fun n hn => (takeFault_others u d _ hn).trans (by rw [k.channels])⟩
  | holds f k hd => rw [hs] at hd; cases hd

theorem serviceBegin_others (g : State) (c : ChannelId) (ph : Phase) :
    (g.serviceBegin (.channel c) ph).pointers = g.pointers
    ∧ ∀ n : ChannelId, n ≠ c → (g.serviceBegin (.channel c) ph).channels[n] = g.channels[n] := by
  cases ph with
  | fetch => exact (Acts.fetchBegin g (.channel c)).others rfl
  | writeback => exact (Acts.writebackBegin g (.channel c)).others rfl
  | move =>
    rcases nextBeat_channel (g.startService (.channel c) .move) c rfl with ⟨-, hlast⟩ | ⟨-, hacts⟩
    · rw [State.serviceBegin, State.moveBegin, hlast, endService_load]
      exact ⟨rfl, fun n hn => by rw [set_getElem, if_neg hn]; rfl⟩
    · exact hacts.others rfl

end Sys2Proof.Machine
end

section
/-! SUPPORT. What a grant begins, and the proof of `Obligations.SchedulerGrantsByClassAndTurn` (R60, R64, R70, R84,
R102, R103, R107). -/

namespace Sys2Proof.Machine

/-! ### Lookups and beats of a known context -/

section KnownContext

variable {o : Host.Outcome State Fault Refusal} {ends : Bool} {g : State} {c : ChannelId} {x : Channel}
  (hx : g.channels[c] = x)

include hx

theorem LookedUp.onHit {v : VAddr} {a : MemAccess} {f : FaultAccess} {goes : State → PAddr → Prop}
    (h : LookedUp o ends g c v a f goes) {w : Fin 4} (hhit : hitWay g.cache[setOf (vpnOf v)] x.domain (vpnOf v) = some w)
    (hknown : a = .write ∨ a = .writeback → g.cache[setOf (vpnOf v)][w].writable = true
      ∧ (g.cache[setOf (vpnOf v)][w].writtenKnown = true ∨ g.domains[x.domain].trackWritten = false)) :
    goes (g.touch (setOf (vpnOf v)) w) (g.cache[setOf (vpnOf v)][w].frame ++ v.extractLsb' 0 11) := by
  subst hx
  obtain ⟨-, hsome⟩ := h
  exact (hsome w hhit).1 hknown

theorem LookedUp.onMiss {v : VAddr} {a : MemAccess} {f : FaultAccess} {goes : State → PAddr → Prop}
    (h : LookedUp o ends g c v a f goes) (hmiss : hitWay g.cache[setOf (vpnOf v)] x.domain (vpnOf v) = none) :
    AsksWalker o ends g c v a := by
  subst hx
  obtain ⟨hnone, -⟩ := h
  exact hnone hmiss

theorem BeatChecked.onSource (h : BeatChecked o ends g c) (hk : x.control.toNat % 4 = 0 ∨ x.control.toNat % 4 = 2) :
    LookedUp o ends g c (x.source.extractLsb' 0 22) .read .read
      (fun h p => ReadSideAnswered o ends { h with engine := { h.engine with readAt := some p } } c) := by
  subst hx
  obtain ⟨hread, -, -⟩ := h
  exact hread hk

theorem ReadSideAnswered.onCopy (h : ReadSideAnswered o ends g c) (hk : x.control.toNat % 4 = 0) :
    LookedUp o ends g c (x.dest.extractLsb' 0 22) .write .write
      (fun h p => FirstAccessIssued o ends { h with engine := { h.engine with writeAt := some p } } c) := by
  subst hx
  obtain ⟨hcopy, -⟩ := h
  exact hcopy hk

theorem FirstAccessIssued.onRead (h : FirstAccessIssued o ends g c)
    (hk : x.control.toNat % 4 = 0 ∨ x.control.toNat % 4 = 2) {p : PAddr} (hp : g.engine.readAt = some p) :
    o = .next { g with
      engine := { g.engine with stage := .read }
      sbi := (g.sbi.handOver .engine
        { space := .memory, width := if x.control.getLsbD 2 = true then .word else .byte, address := p,
          write := none }).goesOn ends } := by
  subst hx
  obtain ⟨hread, -, -⟩ := h
  exact hread p hk hp

end KnownContext

/-! ### Marks do not change a lookup (R44) -/

theorem touch_entry (s : State) (i : Fin 16) (w : Fin 4) (j : Fin 16) (k : Fin 4) :
    (s.touch i w).cache[j][k].frame = s.cache[j][k].frame
    ∧ (s.touch i w).cache[j][k].writable = s.cache[j][k].writable
    ∧ (s.touch i w).cache[j][k].writtenKnown = s.cache[j][k].writtenKnown
    ∧ ∀ d p, (s.touch i w).cache[j][k].hits d p = s.cache[j][k].hits d p := by
  rw [touch_fields s i w j k]
  exact ⟨rfl, rfl, rfl, fun _ _ => rfl⟩

theorem hitWay_touch (s : State) (i : Fin 16) (w : Fin 4) (j : Fin 16) (d : DomainId) (p : Vpn) :
    hitWay (s.touch i w).cache[j] d p = hitWay s.cache[j] d p := by
  unfold hitWay
  congr 1
  funext k
  exact (touch_entry s i w j k).2.2.2 d p

/-- A COPY whose read side is translated and whose destination is at hand issues its read (R109, R112). -/
theorem copyRead_issued {o : Host.Outcome State Fault Refusal} {ends : Bool} {g : State} {c : ChannelId}
    (hread : ReadSideAnswered o ends g c) {x : Channel} (hx : g.channels[c] = x) (hk : x.control.toNat % 4 = 0)
    {p : PAddr} (hp : g.engine.readAt = some p) {v : VAddr} (hv : x.dest.extractLsb' 0 22 = v) {w : Fin 4}
    (hhit : hitWay g.cache[setOf (vpnOf v)] x.domain (vpnOf v) = some w)
    (hw : g.cache[setOf (vpnOf v)][w].writable = true)
    (hknown : g.cache[setOf (vpnOf v)][w].writtenKnown = true ∨ g.domains[x.domain].trackWritten = false) :
    o = .next { g with
      cache := (g.touch (setOf (vpnOf v)) w).cache
      engine := { g.engine with
        stage := .read, writeAt := some (g.cache[setOf (vpnOf v)][w].frame ++ v.extractLsb' 0 11) }
      sbi := (g.sbi.handOver .engine
        { space := .memory, width := if x.control.getLsbD 2 = true then .word else .byte, address := p,
          write := none }).goesOn ends } := by
  subst hv
  have hwrite := (hread.onCopy hx hk).onHit hx hhit fun _ => ⟨hw, hknown⟩
  exact FirstAccessIssued.onRead (by exact hx) hwrite (.inl hk) hp

/-- A COPY whose sides are both at hand issues its read. -/
theorem copyBeat_issued {o : Host.Outcome State Fault Refusal} {ends : Bool} {g : State} {c : ChannelId}
    (hbeat : BeatChecked o ends g c) {x : Channel} (hx : g.channels[c] = x) (hk : x.control.toNat % 4 = 0)
    {v v' : VAddr} (hv : x.source.extractLsb' 0 22 = v) (hv' : x.dest.extractLsb' 0 22 = v') {w w' : Fin 4}
    (hhit : hitWay g.cache[setOf (vpnOf v)] x.domain (vpnOf v) = some w)
    (hhit' : hitWay g.cache[setOf (vpnOf v')] x.domain (vpnOf v') = some w')
    (hw : g.cache[setOf (vpnOf v')][w'].writable = true)
    (hknown : g.cache[setOf (vpnOf v')][w'].writtenKnown = true ∨ g.domains[x.domain].trackWritten = false) :
    o = .next { g with
      cache := ((g.touch (setOf (vpnOf v)) w).touch (setOf (vpnOf v')) w').cache
      engine := { g.engine with
        stage := .read, readAt := some (g.cache[setOf (vpnOf v)][w].frame ++ v.extractLsb' 0 11)
        writeAt := some (g.cache[setOf (vpnOf v')][w'].frame ++ v'.extractLsb' 0 11) }
      sbi := (g.sbi.handOver .engine
        { space := .memory, width := if x.control.getLsbD 2 = true then .word else .byte,
          address := g.cache[setOf (vpnOf v)][w].frame ++ v.extractLsb' 0 11, write := none }).goesOn ends } := by
  subst hv
  obtain ⟨hframe, hwritable, hwritten, -⟩ := touch_entry g (setOf (vpnOf (x.source.extractLsb' 0 22))) w
    (setOf (vpnOf v')) w'
  have hmark := hitWay_touch g (setOf (vpnOf (x.source.extractLsb' 0 22))) w (setOf (vpnOf v')) x.domain (vpnOf v')
  rw [← hwritten] at hknown
  have hread := (hbeat.onSource hx (.inl hk)).onHit hx hhit (fun h => nomatch h)
  have hissued := copyRead_issued hread (by exact hx) hk rfl hv' (by exact hmark.trans hhit') (by exact hwritable.trans hw)
    (by exact hknown)
  rw [← hframe]
  exact hissued

end Sys2Proof.Machine
end

section
/-! SUPPORT. The services that a grant begins, and the proof of `Obligations.SchedulerGrantsByClassAndTurn` (R60, R64,
R70, R84, R102, R103, R107). -/

namespace Sys2Proof.Machine

/-! ### A service begins (R60, R64, R70, R107) -/

section Begins

variable {g : State} {c : ChannelId} {x : Channel} (hx : g.channels[c] = x)

include hx

theorem descriptorAddr_begun (v : Service) : (g.startService (.channel c) v).descriptorAddr = x.descriptor := by
  subst hx
  rfl

theorem fetchBegin_checkFails (h : ¬ (x.descriptor.toNat % 16 = 0 ∧ x.descriptor.toNat ≤ 0x3FFFF0)) :
    CheckFails (.next (g.fetchBegin (.channel c))) false (g.startService (.channel c) .fetch) c .descFormat .fetch
      (x.descriptor.extractLsb' 0 22) := by
  have hbegin : g.fetchBegin (.channel c) = (g.startService (.channel c) .fetch).failAction .descFormat .fetch
      (x.descriptor.extractLsb' 0 22) := by
    unfold State.fetchBegin
    dsimp only
    rw [descriptorAddr_begun hx, if_neg (mt (descAddrOk_channel_iff c _).mp h)]
    rfl
  rw [hbegin]
  exact failAction_checkFails (g := g.startService (.channel c) .fetch) rfl false .descFormat .fetch _

theorem fetchBegin_lookedUp (h : x.descriptor.toNat % 16 = 0 ∧ x.descriptor.toNat ≤ 0x3FFFF0)
    (hr : g.window.resetting = false) :
    LookedUp (.next (g.fetchBegin (.channel c))) false (g.startService (.channel c) .fetch) c
      (x.descriptor.extractLsb' 0 22) .fetch .fetch
      (fun h p => g.fetchBegin (.channel c) = { h with sbi := g.sbi.handOver .engine (readWord p) }) := by
  have hv : (g.startService (.channel c) .fetch).fetchVaddr = x.descriptor.extractLsb' 0 22 := by
    unfold State.fetchVaddr
    rw [descriptorAddr_begun hx]
    exact BitVec.add_zero _
  have hbegin : g.fetchBegin (.channel c) = (g.startService (.channel c) .fetch).fetchNext := by
    unfold State.fetchBegin
    dsimp only
    rw [descriptorAddr_begun hx, if_pos ((descAddrOk_channel_iff c _).mpr h)]
  rw [hbegin, fetchNext_channel (c := c) rfl hv]
  refine translate_lookedUp (g := g.startService (.channel c) .fetch) (K := State.fetchAnswer) rfl nofun hr
    (fun _ => rfl) (fun _ => rfl) (fun i w => ?_) (fun i w q ho => ?_) rfl
  · exact congrArg (((g.startService (.channel c) .fetch).touch i w).failAction .writeDenied .fetch) hv
  · exact Host.Outcome.next.inj ho

theorem writebackBegin_lookedUp (hr : g.window.resetting = false) :
    LookedUp (.next (g.writebackBegin (.channel c))) false (g.startService (.channel c) .writeback) c
      (x.descriptor.extractLsb' 0 22 + 1) .writeback .writeback
      (fun h p => g.writebackBegin (.channel c) = { h with
        sbi := g.sbi.handOver .engine
          { space := .memory, width := .byte, address := p,
            write := some (match x.code with | .complete => 1 | .skipped => 2) } }) := by
  have hv : (g.startService (.channel c) .writeback).statusVaddr = x.descriptor.extractLsb' 0 22 + 1 := by
    unfold State.statusVaddr
    rw [descriptorAddr_begun hx]
    rfl
  unfold State.writebackBegin
  dsimp only
  rw [servedDomain_served (c := c) rfl, hv]
  refine translate_lookedUp (g := g.startService (.channel c) .writeback) (K := State.writebackAnswer) rfl nofun hr
    (fun _ => rfl) (fun _ => rfl) (fun i w => ?_) (fun i w q ho => ?_) rfl
  · exact congrArg (((g.startService (.channel c) .writeback).touch i w).failAction .writeDenied .writeback) hv
  · have hcode : ((g.startService (.channel c) .writeback).touch i w).statusByte = x.code.bits.setWidth 8 := by
      rw [statusByte_channel (c := c) rfl]
      subst hx
      rfl
    refine (Host.Outcome.next.inj ho).trans ?_
    change State.handOver _ .engine (writeByte q (State.statusByte _)) = _
    rw [hcode, writeByte_code]
    rfl

section Move

variable (hrem : x.remaining ≠ 0) (hburst : x.burst ≠ 0) (hm : g.urgent.mode = .normal)

include hrem hburst hm

theorem moveBegin_checked (hr : g.window.resetting = false) (hl : g.lineLow x ≠ true) :
    BeatChecked (.next (g.moveBegin (.channel c))) false (g.startService (.channel c) .move) c := by
  have hbegin : g.moveBegin (.channel c) = (g.startService (.channel c) .move).checkBeat := by
    rw [State.moveBegin, nextBeat_begins (g := g.startService (.channel c) .move) (c := c) rfl (by exact hx) hrem
      (fun h => h.1 rfl) (by exact hburst.symm) hm (by exact hl), beginBeat_channel (c := c) rfl]
    rfl
  rw [hbegin]
  exact checkBeat_checked (g := g.startService (.channel c) .move) rfl nofun hr false

theorem moveBegin_waits (hl : g.lineLow x = true) : g.moveBegin (.channel c) = { g with
    channels := g.channels.set c (x.afterService .waitReq), engine := Engine.free } := by
  rw [State.moveBegin, nextBeat_waits (g := g.startService (.channel c) .move) (c := c) rfl (by exact hx) hrem
    (fun h => h.1 rfl) (by exact hburst.symm) hm (by exact hl), endService_eq]
  subst hx
  rfl

end Move

end Begins

/-- A fault of a channel that has just been granted, reported against the state before the grant. -/
theorem Reported.ofGranted {s g t : State} {c : ChannelId} (hq : g.queue = s.queue)
    (hc : g.channels = s.channels.set c { s.channels[c] with state := .active }) {k : FaultKind} {a : FaultAccess}
    {addr : BitVec 22} (h : Reported g t c (recordOf g c k a addr)) : Reported s t c (recordOf s c k a addr) := by
  have hself : g.channels[c] = { s.channels[c] with state := .active } := by rw [hc, set_getElem, if_pos rfl]
  have hrecord : recordOf g c k a addr = recordOf s c k a addr := by
    unfold recordOf
    rw [hself]
  rw [hrecord] at h
  unfold Reported at h ⊢
  dsimp only at h ⊢
  rw [hq, hc, set_getElem, if_pos rfl, Vector.set_set] at h
  exact h

theorem afterService_noPending {x : Channel} (st : ChannelState) (hh : x.pendingHalt = false)
    (ha : x.pendingAbort = false) : x.afterService st = { x with state := st } := by
  rw [afterService_quiet st hh ha]
  congr 1
  · exact hh.symm
  · exact ha.symm

theorem exec_schedulerGrant {s : State} (hrun : s.Running) (preq : BitVec 8) :
    exec (.schedulerGrant preq) s = .next (s.sampleLines preq).schedule :=
  congrArg Host.Outcome.next (unlessReset_running hrun)

theorem exec_schedulerGrant_kept {s : State} (hrun : s.Running) (preq : BitVec 8)
    (h : s.engine.service ≠ .none ∨ s.urgent.mode ≠ .normal ∨ s.window.resetting = true
      ∨ ∀ c : ChannelId, s.channels[c].state ≠ .ready) :
    exec (.schedulerGrant preq) s = .next { s with pins := { s.pins with preq := preq } } := by
  rw [exec_schedulerGrant hrun]
  refine congrArg Host.Outcome.next ?_
  by_cases hnone : ∀ c : ChannelId, s.channels[c].state ≠ .ready
  · exact schedule_none (grantChoice_none hnone)
  · refine schedule_impossible (Bool.eq_false_iff.mpr fun hp => ?_)
    obtain ⟨hservice, hmode, hresetting⟩ := (grantPossible_iff _).mp hp
    rcases h with h | h | h | h
    · exact h hservice
    · exact h hmode
    · exact Bool.false_ne_true (hresetting.symm.trans h)
    · exact hnone h

/-- Settles O40: the Scheduler takes the first channel of the highest class, and the service of its phase begins. -/
theorem schedulerGrantsByClassAndTurn : Obligations.SchedulerGrantsByClassAndTurn := by
  refine ⟨?grants, fun preq s hrun h => exec_schedulerGrant_kept hrun preq h⟩
  intro preq s c hrun hservice hmode hresetting hready hclass hfirst x kind width held at_ writable paced placed moving g
  have hrow : exec (.schedulerGrant preq) s = .next (g.serviceBegin (.channel c) x.phase) := by
    rw [exec_schedulerGrant hrun, schedule_grants (s := s.sampleLines preq)
      ((grantPossible_iff _).mpr ⟨hservice, hmode, hresetting⟩) (grantChoice_some hready hclass hfirst)]
    rfl
  have hself : g.channels[c] = { x with state := .active } := by rw [set_getElem, if_pos rfl]
  have hfetch (h : x.phase = .fetch) : g.serviceBegin (.channel c) x.phase = g.fetchBegin (.channel c) := by rw [h]; rfl
  have hback (h : x.phase = .writeback) : g.serviceBegin (.channel c) x.phase = g.writebackBegin (.channel c) := by
    rw [h]; rfl
  have hmove (h : x.phase = .move) : g.serviceBegin (.channel c) x.phase = g.moveBegin (.channel c) := by rw [h]; rfl
  have hfetched (h : x.phase = .fetch) (hp : placed) := fetchBegin_lookedUp hself hp hresetting
  have hwritten (h : x.phase = .writeback) := writebackBegin_lookedUp hself (by exact hresetting)
  have hpositive (h : moving) : x.remaining ≠ 0 ∧ x.burst ≠ 0 := by
    obtain ⟨-, hr, hb⟩ := h
    exact ⟨fun h0 => by rw [h0] at hr; exact absurd hr (by decide),
      fun h0 => by rw [h0] at hb; exact absurd hb (by decide)⟩
  have hchecked (h : moving) (hl : g.lineLow { x with state := .active } ≠ true) :
      BeatChecked (.next (g.serviceBegin (.channel c) x.phase)) false (g.startService (.channel c) .move) c := by
    rw [hmove h.1]
    exact moveBegin_checked hself (hpositive h).1 (hpositive h).2 hmode hresetting hl
  obtain ⟨hpointers, hothers⟩ := serviceBegin_others g c x.phase
  refine ⟨_, hrow, rfl, hpointers, fun n hn => ?others, fun h hp => ?misplaced, fun w h hp => ?fetchHit,
    fun w h => ?writebackHit, fun w w' h hk => ?copy, fun w h hk => ?fill, fun h hp => ?fetch, fun h => ?writeback, fun h hl => ?beat,
    fun n h hp hl hlow hn => ?waits⟩
  case others =>
    rw [hothers n hn, set_getElem, if_neg hn]
  case misplaced =>
    obtain ⟨t, ht, hreported, hframe⟩ := fetchBegin_checkFails hself hp
    rw [hfetch h, Host.Outcome.next.inj ht]
    exact ⟨Reported.ofGranted (s := s) (g := g.startService (.channel c) .fetch) rfl rfl hreported, hframe⟩
  case fetchHit =>
    intro v hhit
    exact (hfetch h).trans (LookedUp.onHit (g := g.startService (.channel c) .fetch) hself (hfetched h hp) hhit nofun)
  case writebackHit =>
    intro v hhit hw
    exact (hback h).trans (LookedUp.onHit (g := g.startService (.channel c) .writeback) hself (hwritten h) hhit fun _ => hw)
  case copy =>
    intro v v' hhit hhit' hw
    have hl : g.lineLow { x with state := .active } ≠ true := fun hl => by
      obtain ⟨n, hpaced, -⟩ := (lineLow_iff g _).mp hl
      exact absurd hpaced (by change ¬ (kind = 1 ∨ kind = 2); rw [hk]; decide)
    exact Host.Outcome.next.inj (copyBeat_issued (hchecked h hl) hself hk rfl rfl hhit hhit' hw.1 hw.2)
  case fill =>
    intro v pattern hhit hw
    have hl : g.lineLow { x with state := .active } ≠ true := fun hl => by
      obtain ⟨n, hpaced, -⟩ := (lineLow_iff g _).mp hl
      exact absurd hpaced (by change ¬ (kind = 1 ∨ kind = 2); rw [hk]; decide)
    exact Host.Outcome.next.inj (fillBeat_issued (hchecked h hl) hself hk rfl hhit hw.1 hw.2)
  case fetch => rw [hfetch h]; exact hfetched h hp
  case writeback => rw [hback h]; exact hwritten h
  case beat =>
    refine hchecked h fun hlow => ?_
    obtain ⟨n, hpaced, hline, hn⟩ := (lineLow_iff g _).mp hlow
    exact Bool.false_ne_true (hn.symm.trans (hl n hpaced hline))
  case waits =>
    have hwait := moveBegin_waits hself (hpositive h).1 (hpositive h).2 hmode ((lineLow_iff g _).mpr ⟨n, hp, hl, hlow⟩)
    rw [hmove h.1, hwait, afterService_noPending (x := { x with state := .active }) _ hn.1 hn.2, Vector.set_set]

end Sys2Proof.Machine
end

section
/-! SUPPORT. The port sides of a beat, and the proof of `Obligations.PortBeatsNeedTheGrant` (R4, R109, R111, R112). -/

namespace Sys2Proof.Machine

section KnownContext

variable {o : Host.Outcome State Fault Refusal} {ends : Bool} {g : State} {c : ChannelId} {x : Channel}
  (hx : g.channels[c] = x)

include hx

theorem BeatChecked.onIngest (h : BeatChecked o ends g c) (hk : x.control.toNat % 4 = 1) :
    let granted : Prop :=
      g.PortsGranted x.domain (if x.control.getLsbD 2 = true then .word else .byte) (x.source.extractLsb' 0 8)
    (granted → LookedUp o ends g c (x.dest.extractLsb' 0 22) .write .write
      (fun h p => FirstAccessIssued o ends { h with engine := { h.engine with writeAt := some p } } c))
    ∧ (¬ granted → CheckFails o ends g c .portDenied .portRead ((x.source.extractLsb' 0 8).setWidth 22)) := by
  subst hx
  obtain ⟨-, hingest, -⟩ := h
  exact hingest hk

theorem ReadSideAnswered.onEmit (h : ReadSideAnswered o ends g c) (hk : x.control.toNat % 4 = 2) :
    let granted : Prop :=
      g.PortsGranted x.domain (if x.control.getLsbD 2 = true then .word else .byte) (x.dest.extractLsb' 0 8)
    (granted → FirstAccessIssued o ends g c)
    ∧ (¬ granted → CheckFails o ends g c .portDenied .portWrite ((x.dest.extractLsb' 0 8).setWidth 22)) := by
  subst hx
  obtain ⟨-, hemit⟩ := h
  exact hemit hk

theorem FirstAccessIssued.onPort (h : FirstAccessIssued o ends g c) (hk : x.control.toNat % 4 = 1) : o = .next { g with
    engine := { g.engine with stage := .read }
    sbi := (g.sbi.handOver .engine
      { space := .port, width := if x.control.getLsbD 2 = true then .word else .byte,
        address := (x.source.extractLsb' 0 8).setWidth 24, write := none }).goesOn ends } := by
  subst hx
  obtain ⟨-, hport, -⟩ := h
  exact hport hk

end KnownContext

/-- The grant of an access, its width given as a bit. -/
theorem portsGranted_iff (s : State) (d : DomainId) (word : Prop) [Decidable word] (p : Port) :
    s.PortsGranted d (if word then .word else .byte) p ↔
      s.portGranted d p = true ∧ (word → s.portGranted d (p + 1) = true) := by
  unfold State.PortsGranted
  by_cases h : word
  · rw [if_pos h]
    exact ⟨fun k => ⟨k.1, fun _ => k.2 rfl⟩, fun k => ⟨k.1, fun _ => k.2 h⟩⟩
  · rw [if_neg h]
    exact ⟨fun k => ⟨k.1, fun hw => absurd hw h⟩, fun k => ⟨k.1, nofun⟩⟩

/-- A check that fails as a channel's service begins, against the state before the grant. -/
theorem CheckFails.ofGranted {o : Host.Outcome State Fault Refusal} {s g : State} {c : ChannelId} {k : FaultKind}
    {a : FaultAccess} {addr : BitVec 22} (h : CheckFails o false g c k a addr) (hsbi : g.sbi = s.sbi)
    (hq : g.queue = s.queue) (hc : g.channels = s.channels.set c { s.channels[c] with state := .active }) :
    ∃ t, o = .next t ∧ t.sbi = s.sbi ∧ t.engine = Engine.free ∧ Reported s t c (recordOf s c k a addr) := by
  obtain ⟨t, ho, hreported, hframe⟩ := h
  refine ⟨t, ho, ?_, ?_, hreported.ofGranted hq hc⟩
  · rw [hframe]
    exact hsbi
  · rw [hframe]

/-- Settles O41: the only READY channel is granted, and its beat finds its port granted or not. -/
theorem portBeatsNeedTheGrant : Obligations.PortBeatsNeedTheGrant := by
  intro preq s c hrun hservice hmode hresetting hready honly hphase hrem hburst hline x word granted denied issued g
  have hc (n : ChannelId) (hn : s.channels[n].state = .ready) : n = c := by
    by_contra hne
    exact honly n hne hn
  obtain ⟨t, hrow, -, -, -, -, -, -, -, -, -, -, hbeat, -⟩ := schedulerGrantsByClassAndTurn.1 preq s c hrun hservice hmode
    hresetting hready (fun n hn => by rw [hc n hn]) (fun n hn _ => by rw [hc n hn])
  have hchecked : BeatChecked (exec (.schedulerGrant preq) s) false g c := by
    rw [hrow]
    exact hbeat ⟨hphase, hrem, hburst⟩ fun n _ hl => hline n hl
  let y : Channel := { x with state := .active }
  have hself : g.channels[c] = y := by rw [set_getElem, if_pos rfl]
  have hgranted (p : Port) :
      g.PortsGranted x.domain (if x.control.getLsbD 2 = true then .word else .byte) p ↔ granted p :=
    portsGranted_iff g _ _ p
  refine ⟨fun hk => ?ingest, fun hk => ?emit⟩
  case ingest =>
    intro p v
    obtain ⟨hgo, hfail⟩ := hchecked.onIngest hself hk
    refine ⟨fun hg => ?_, fun w hg hhit hw hknown => ?_, fun hg => ?_⟩
    · exact (hfail (mt (hgranted p).mp hg)).ofGranted rfl rfl rfl
    · have hwrite := LookedUp.onHit hself (hgo ((hgranted p).mpr hg)) hhit fun _ => ⟨hw, .inl hknown⟩
      exact ⟨_, FirstAccessIssued.onPort (x := y) (by exact hself) hwrite hk, rfl, rfl, hself⟩
    · unfold WriteSideLookedUp
      rw [hself]
      exact hgo ((hgranted p).mpr hg)
  case emit =>
    intro p v
    have hsource := hchecked.onSource hself (.inr hk)
    refine ⟨fun hmiss => LookedUp.onMiss hself hsource hmiss, fun w hhit => ?_⟩
    have hread := LookedUp.onHit hself hsource hhit nofun
    obtain ⟨hgo, hfail⟩ := ReadSideAnswered.onEmit (x := y) (by exact hself) hread hk
    refine ⟨fun hg => ?_, fun hg => ?_⟩
    · exact (hfail (mt (hgranted p).mp hg)).ofGranted rfl rfl rfl
    · exact ⟨_, FirstAccessIssued.onRead (x := y) (by exact hself) (hgo ((hgranted p).mpr hg))
        (.inr hk) rfl, rfl, rfl, hself⟩

end Sys2Proof.Machine
end

section
/-! SUPPORT. The words of the save image as numbers, the save, and the proof of `Obligations.SaveWritesTheImage` (R140
to R145). -/

namespace Sys2Proof.Machine

/-! ### The places of the image's words (R143) -/

/-- A list made of pieces of one length is read by piece and place. -/
theorem getD_flatMap {α β : Type} {f : α → List β} {n : Nat} (hf : ∀ a, (f a).length = n) (d : β) {j : Nat} (hj : j < n) :
    ∀ (l : List α) (i : Nat) (hi : i < l.length), (l.flatMap f).getD (n * i + j) d = (f l[i]).getD j d
  | a :: l, 0, _ => by
    rw [List.flatMap_cons, Nat.mul_zero, Nat.zero_add, List.getD_append _ _ _ _ (by rw [hf]; exact hj)]
    rfl
  | a :: l, i + 1, hi => by
    have hplace : n * (i + 1) + j - (f a).length = n * i + j := by
      rw [hf, Nat.mul_succ]
      omega
    rw [List.flatMap_cons, List.getD_append_right _ _ _ _ (by rw [hf, Nat.mul_succ]; omega), hplace,
      getD_flatMap hf d hj l i (Nat.lt_of_succ_lt_succ hi)]
    rfl

theorem headerOf_length (cause : Option Source) (base : PAddr) : (headerOf cause base).length = 16 := by
  simp [headerOf, wordsOfLong]

theorem record_length (x : Channel) : x.record.length = 16 := rfl

theorem allChannels_getElem (c : ChannelId) : allChannels[c.val]'(c.isLt) = c := by revert c; decide

theorem imageWords_header (s : State) {i : Nat} (hi : i < 16) :
    wordAt s.imageWords i = wordAt (headerOf s.urgent.entryCause s.urgent.saveBase) i :=
  List.getD_append _ _ _ _ (by rw [headerOf_length]; exact hi)

theorem imageWords_record (s : State) (c : ChannelId) {j : Nat} (hj : j < 16) :
    wordAt s.imageWords (16 + 16 * c.val + j) = wordAt s.channels[c].record j := by
  have hplace : 16 + 16 * c.val + j - (headerOf s.urgent.entryCause s.urgent.saveBase).length = 16 * c.val + j := by
    rw [headerOf_length]
    omega
  unfold State.imageWords wordAt
  rw [List.getD_append_right _ _ _ _ (by rw [headerOf_length]; omega), hplace,
    getD_flatMap (fun c => record_length s.channels[c]) 0 hj allChannels c.val c.isLt, allChannels_getElem]

/-! ### The words of a record as numbers (R143) -/

theorem stateBits_toNat (st : ChannelState) : (0#8 ++ st.bits.setWidth 8).toNat = (match st with
    | .idle => 0 | .ready => 1 | .waitReq => 2 | .active => 3 | .halted => 4 | .faulted => 5 | .faultWait => 6
    | .done => 7) := by
  cases st <;> rfl

theorem bindingWord_toNat (x : Channel) :
    ((lineBits x.line ++ 0#2 ++ BitVec.ofNat 2 x.priority.val) ++ BitVec.ofNat 8 x.domain.val).toNat =
      x.domain.val + 256 * x.priority.val + 4096 * (lineBits x.line).toNat := by
  simp only [append_toNat, BitVec.toNat_ofNat, Nat.zero_mod]
  omega

theorem phaseWord_toNat (k : WritebackCode) (ph : Phase) : (k.bits.setWidth 8 ++ ph.bits.setWidth 8).toNat =
    (match ph with | .fetch => 0 | .move => 1 | .writeback => 2) + 256 * (match k with | .complete => 1 | .skipped => 2) := by
  cases k <;> cases ph <;> rfl

theorem causeWord_toNat (c : Option Source) : ((causeBits c).setWidth 16).toNat =
    (match c with | some .line => 1 | some .command => 2 | none => 0) := by
  rcases c with - | _ | _ <;> rfl

/-! ### The save (R140, R142, R144, R145) -/

section SaveWrite

variable {s : State} {a : Access} (h : s.Carrying .urgent a) (hm : s.urgent.mode = .urgentEntry)
  (hstep : s.urgent.step = .save)

include h hm hstep in
theorem exec_saveWriteEnd (e : BusEnd) : exec (.saveWriteEnd e) s =
    .next (State.saveWriteEnd { s with sbi := s.sbi.ended } e).settleBus :=
  congrArg Host.Outcome.next (accessEnd_carried h (by rw [hm, hstep]; rfl) _)

end SaveWrite

section SaveWriteEnd

variable {g : State} (sd : Word)

theorem saveWriteEnd_next (h : g.urgent.saveProgress < 143) : g.saveWriteEnd (.ready sd) = State.handOver { g with
      urgent := { g.urgent with saveProgress := g.urgent.saveProgress + 1 } } .urgent
    (writeWord (g.urgent.saveBase + BitVec.ofNat 24 (2 * (g.urgent.saveProgress + 1)))
      (wordAt g.imageWords (g.urgent.saveProgress + 1))) :=
  if_neg (by change g.urgent.saveProgress + 1 ≠ 144; omega)

theorem saveWriteEnd_run (h : g.urgent.saveProgress = 143) : g.saveWriteEnd (.ready sd) =
    State.startRun { g with urgent := { g.urgent with saveProgress := 144 } } :=
  (if_pos (by change g.urgent.saveProgress + 1 = 144; rw [h])).trans (by rw [h])

end SaveWriteEnd

/-- A lock, with the SBI after it (R144, R158, R159, R170). -/
theorem lockPart_settled (g : State) (k : LockKind) (n : Nat) : (g.lockPart k n).settleBus = { g with
    sbi := g.sbi.settle
    urgent := { g.urgent with mode := .locked, latch := none, lock := { kind := k, place := BitVec.ofNat 8 n } }
    window := { g.window with lockCause := true } } := by
  rw [settleBus_mode (by exact nofun)]
  rfl

theorem exec_saveBegin {s : State} (hrun : s.Running) (hr : s.window.resetting = false)
    (hm : s.urgent.mode = .urgentEntry) (hstep : s.urgent.step = .drain) (hv : s.engine.service = .none)
    (hi : s.walker.state = .idle) : exec .saveBegin s = .next s.saveBegin := by
  have hdrained : s.drained = true := by
    unfold State.drained Walker.busy
    rw [hm, hstep, hv, hi, hr]
    rfl
  exact congrArg Host.Outcome.next ((unlessReset_running hrun).trans (if_pos hdrained))

theorem saveBegin_eq (s : State) : s.saveBegin = { s with
    urgent := { s.urgent with step := .save, saveProgress := 0 }
    sbi := s.sbi.handOver .urgent (writeWord s.urgent.saveBase 0x0047#16) } := by
  have haddr : s.urgent.saveBase + BitVec.ofNat 24 (2 * 0) = s.urgent.saveBase := BitVec.add_zero _
  unfold State.saveBegin State.saveNext State.imageAddr
  dsimp only
  rw [haddr]
  rfl

/-- Settles O52: the save writes the words one by one, and each is the field of its place. -/
theorem saveWritesTheImage : Obligations.SaveWritesTheImage := by
  refine ⟨fun s hrun hr hm hstep hv hi => ?begin, fun s a sd h hm hstep => ?write, fun s => ?words⟩
  case begin => rw [exec_saveBegin hrun hr hm hstep hv hi, saveBegin_eq]
  case write =>
    have hrow := exec_saveWriteEnd h hm hstep
    refine ⟨imageWords_length s, fun hlt hin => ?_, fun hp hbase => ?_, fun hp hbase => ?_, ?_⟩
    · have hword : wordAt s.imageWords (s.urgent.saveProgress + 1) = s.imageWords[s.urgent.saveProgress + 1] :=
        List.getD_eq_getElem _ _ hin
      rw [hrow, saveWriteEnd_next sd (by exact hlt), settleBus_handOver, ← hword]
      rfl
    · rw [hrow, saveWriteEnd_run sd (by exact hp), startRun_eq _ (by exact hbase), settleBus_asked rfl]
    · rw [hrow, saveWriteEnd_run sd (by exact hp), startRun_bad _ (by exact hbase), settleBus_free rfl]
    · exact (hrow .busError).trans (congrArg Host.Outcome.next (lockPart_settled _ _ _))
  case words =>
    intro word
    have hheader {i : Nat} (hi : i < 16) : word i = (wordAt (headerOf s.urgent.entryCause s.urgent.saveBase) i).toNat :=
      congrArg BitVec.toNat (imageWords_header s hi)
    refine ⟨⟨hheader (by decide), ?_, ?_, ?_, fun i hlo hhi => ?_⟩, ?_⟩
    · exact (hheader (by decide)).trans (causeWord_toNat _)
    · exact (hheader (by decide)).trans (lowWord_toNat _)
    · exact (hheader (by decide)).trans (highWord_toNat _)
    · rw [hheader (by omega)]
      interval_cases i <;> rfl
    · intro c x o
      have hrecord {j : Nat} (hj : j < 16) : word (o + j) = (wordAt x.record j).toNat :=
        congrArg BitVec.toNat (imageWords_record s c hj)
      have hburst : (x.burst.setWidth 16).toNat = x.burst.toNat := rfl
      have hcontrol : (0#8 ++ x.control).toNat = x.control.toNat := by
        rw [append_toNat]
        exact Nat.zero_add _
      refine ⟨(hrecord (j := 0) (by decide)).trans (stateBits_toNat _), ?_,
        (hrecord (by decide)).trans hburst, (hrecord (by decide)).trans hcontrol, hrecord (by decide), hrecord (by decide),
        (hrecord (by decide)).trans (lowWord_toNat _), (hrecord (by decide)).trans (highWord_toNat _),
        (hrecord (by decide)).trans (lowWord_toNat _), (hrecord (by decide)).trans (highWord_toNat _),
        (hrecord (by decide)).trans (lowWord_toNat _), (hrecord (by decide)).trans (highWord_toNat _),
        (hrecord (by decide)).trans (lowWord_toNat _), (hrecord (by decide)).trans (highWord_toNat _),
        (hrecord (by decide)).trans (phaseWord_toNat _ _), hrecord (by decide)⟩
      exact (hrecord (by decide)).trans ((bindingWord_toNat x).trans
        (congrArg (fun n => x.domain.val + 256 * x.priority.val + 4096 * n) (lineBits_toNat x.line)))

end Sys2Proof.Machine
end

section
/-! SUPPORT. The fields of the image's records as numbers, the load of a record, and the proof of
`Obligations.ImageRecordsLoad` (R143, R161, R163, R164). -/

namespace Sys2Proof.Machine

/-! ### Bytes, words and longs of the image (R143) -/

/-- Byte `i` of a list of words, low byte first. -/
def imageByte (ws : List Word) (i : Nat) : Nat := (ws.getD (i / 2) 0).toNat / 256 ^ (i % 2) % 256

/-- The word at byte `i`. -/
def imageWord (ws : List Word) (i : Nat) : Nat := imageByte ws i + 256 * imageByte ws (i + 1)

/-- The long at byte `i`. -/
def imageLong (ws : List Word) (i : Nat) : Nat := imageWord ws i + 65536 * imageWord ws (i + 2)

section ImageNumbers

variable (ws : List Word) {i k : Nat}

theorem imageByte_low (h : i = 2 * k) : (lowByte (wordAt ws k)).toNat = imageByte ws i := by
  have hdiv : i / 2 = k := by omega
  have hmod : i % 2 = 0 := by omega
  unfold imageByte lowByte wordAt
  rw [hdiv, hmod, field_toNat]
  rfl

theorem imageByte_high (h : i = 2 * k + 1) : (highByte (wordAt ws k)).toNat = imageByte ws i := by
  have hdiv : i / 2 = k := by omega
  have hmod : i % 2 = 1 := by omega
  unfold imageByte highByte wordAt
  rw [hdiv, hmod, field_toNat]
  rfl

theorem imageWord_eq (h : i = 2 * k) : (wordAt ws k).toNat = imageWord ws i := by
  have hlt := (wordAt ws k).isLt
  unfold imageWord
  rw [← imageByte_low ws h, ← imageByte_high ws (i := i + 1) (by rw [h])]
  unfold lowByte highByte
  rw [field_toNat, field_toNat]
  omega

theorem imageLong_eq (h : i = 2 * k) : (longAt ws k).toNat = imageLong ws i := by
  unfold imageLong longAt
  rw [append_toNat, imageWord_eq ws h, imageWord_eq ws (i := i + 2) (k := k + 1) (by omega)]
  omega

end ImageNumbers

/-- The record of a channel in the image, its fields as numbers (R143). -/
theorem imageRecord_toNat (ws : List Word) (c : ChannelId) :
    let o := 32 + 32 * c.val
    let r := imageRecord ws c
    r.state.toNat = imageByte ws o ∧ r.disposition.toNat = imageByte ws (o + 1) ∧ r.domain.toNat = imageByte ws (o + 2)
    ∧ r.priorityLine.toNat = imageByte ws (o + 3) ∧ r.burst.toNat = imageWord ws (o + 4)
    ∧ r.control.toNat = imageWord ws (o + 6) ∧ r.count.toNat = imageWord ws (o + 8)
    ∧ r.remaining.toNat = imageWord ws (o + 10)
    ∧ r.descriptor.toNat = imageLong ws (o + 12) ∧ r.source.toNat = imageLong ws (o + 16)
    ∧ r.dest.toNat = imageLong ws (o + 20) ∧ r.next.toNat = imageLong ws (o + 24)
    ∧ r.phase.toNat = imageByte ws (o + 28) ∧ r.code.toNat = imageByte ws (o + 29) := by
  refine ⟨imageByte_low ws ?_, imageByte_high ws ?_, imageByte_low ws ?_, imageByte_high ws ?_, imageWord_eq ws ?_,
    imageWord_eq ws ?_, imageWord_eq ws ?_, imageWord_eq ws ?_, imageLong_eq ws ?_, imageLong_eq ws ?_,
    imageLong_eq ws ?_, imageLong_eq ws ?_, imageByte_low ws ?_, imageByte_high ws ?_⟩
  all_goals omega

/-! ### The codes of a record (R143, R160, R161) -/

theorem stateOfCode_bits {b : Byte} {st : ChannelState} (h : b.toNat = st.bits.toNat) (hst : st ≠ .active) :
    stateOfCode b = some st := by
  unfold stateOfCode
  rw [h]
  cases st
  case active => exact absurd rfl hst
  all_goals rfl

theorem phaseOfCode_bits {b : Byte} {ph : Phase} (h : b.toNat = ph.bits.toNat) : phaseOfCode b = some ph := by
  unfold phaseOfCode
  rw [h]
  cases ph <;> rfl

theorem phaseOfCode_none {b : Byte} (h : 2 < b.toNat) : phaseOfCode b = none := by
  unfold phaseOfCode
  split
  case h_4 => rfl
  all_goals omega

theorem wbOfCode_getD (b : Byte) : (wbOfCode b).getD .complete = if b.toNat = 2 then .skipped else .complete := by
  unfold wbOfCode
  split
  · rename_i h; rw [h]; rfl
  · rename_i h; rw [h]; rfl
  · rename_i h; rw [if_neg h]; rfl

theorem domainOfCode_val (b : Byte) : ((domainOfCode b).getD 0).val = if b.toNat ≤ 15 then b.toNat else 0 := by
  unfold domainOfCode
  by_cases h : b.toNat < 16
  · rw [dif_pos h, if_pos (by omega)]
    rfl
  · rw [dif_neg h, if_neg (by omega)]
    rfl

/-- The line of a record, by its code (R143). -/
theorem lineOfCode_some {x : BitVec 4} {l : Option (Fin 8)} (h : x.toNat = (lineBits l).toNat) : lineOfCode x = some l := by
  obtain rfl := BitVec.eq_of_toNat_eq h
  cases l with
  | none => rfl
  | some n => revert n; decide

theorem lineOfCode_unnamed {x : BitVec 4} (h : 7 < x.toNat) (h15 : x.toNat ≠ 15) : lineOfCode x = none := by
  unfold lineOfCode
  rw [dif_neg (by omega), if_neg (fun k => h15 (by rw [k]; rfl))]

theorem lineField_toNat (r : ImageRecord) : (r.priorityLine.extractLsb' 4 4).toNat = r.priorityLine.toNat / 16 := by
  have := r.priorityLine.isLt
  rw [field_toNat]
  omega

/-! ### The load of a record (R163, R164) -/

theorem settledState_eq (st : ChannelState) :
    settledState st = if st = .faulted ∨ st = .waitReq then .ready else st := by cases st <;> rfl

section LoadRecord

variable (x : Channel) {r : ImageRecord}

theorem loadRecord_redo (h : r.disposition.toNat = 1) : x.loadRecord r = (x.restore r).redo := by
  unfold Channel.loadRecord
  rw [h]
  rfl

theorem loadRecord_skip (h : r.disposition.toNat = 2) : x.loadRecord r = (x.restore r).skip := by
  unfold Channel.loadRecord
  rw [h]
  rfl

theorem loadRecord_plain (h : r.disposition.toNat = 0) : x.loadRecord r = x.restore r := by
  unfold Channel.loadRecord
  rw [h]
  rfl

end LoadRecord

section Skip

variable {y : Channel}

theorem skip_move (h : y.phase = .move) :
    y.skip = { y with phase := .writeback, code := .skipped, state := settledState y.state } := by
  unfold Channel.skip
  rw [h]

variable (h : y.phase = .writeback)

include h

theorem skip_writeback : y.skip =
    if isEnd y.control then y.advance else { y.advance with state := settledState y.state } := by
  unfold Channel.skip
  rw [h]

theorem skip_end (he : y.control.getLsbD 3 = true) : y.skip = { y with state := .done, completion := .complete } := by
  exact (skip_writeback h).trans ((if_pos he).trans (Channel.advance_end he))

theorem skip_next (he : y.control.getLsbD 3 = false) :
    y.skip = { y with state := settledState y.state, phase := .fetch, descriptor := y.next } := by
  rw [skip_writeback h, if_neg (by exact Bool.eq_false_iff.mp he), Channel.advance_next he]

end Skip

/-- The context that the load of a record gives, the fields decoded (R163). -/
def Channel.loaded (x : Channel) (r : ImageRecord) (st : ChannelState) (d : DomainId) (l : Option (Fin 8)) (b : BitVec 5)
    (ph : Phase) (k : WritebackCode) : Channel := { x with
  state := st, domain := d, priority := Fin.ofNat 4 (r.priorityLine.toNat % 4), line := l, burst := b
  control := r.control.extractLsb' 0 8, count := r.count, remaining := r.remaining, descriptor := r.descriptor
  source := r.source, dest := r.dest, next := r.next, phase := ph, code := k
  pendingHalt := false, pendingAbort := false
  held := if st = .idle ∧ x.state ≠ .idle then none else x.held
  completion := if st = .idle ∧ x.state ≠ .idle then .aborted else x.completion }

theorem restore_eq (x : Channel) {r : ImageRecord} {st : ChannelState} {d : DomainId} {l : Option (Fin 8)} {b : BitVec 5}
    {ph : Phase} {k : WritebackCode} (hst : stateOfCode r.state = some st) (hd : (domainOfCode r.domain).getD 0 = d)
    (hl : r.line.getD (some 0) = l) (hb : (if r.burst.toNat ≤ 16 then r.burst.extractLsb' 0 5 else 0) = b)
    (hph : (phaseOfCode r.phase).getD .fetch = ph) (hk : (wbOfCode r.code).getD .complete = k) :
    x.restore r = x.loaded r st d l b ph k := by
  have hpriority : r.priority = Fin.ofNat 4 (r.priorityLine.toNat % 4) := by
    unfold ImageRecord.priority
    rw [field_toNat]
    change Fin.ofNat 4 (_ / 1 % 4) = _
    rw [Nat.div_one]
  unfold Channel.restore Channel.loaded
  simp only [hst, hd, hl, hb, hph, hk, hpriority, Option.getD_some, Bool.and_eq_true, beq_iff_eq, bne_iff_ne]
  rfl

/-- The fields of a record that have a value for every code (R163). -/
theorem line_getD {r : ImageRecord} {l : Option (Fin 8)} (h : (lineBits l).toNat =
      if r.priorityLine.toNat / 16 ≤ 7 ∨ r.priorityLine.toNat / 16 = 15 then r.priorityLine.toNat / 16 else 0) :
    r.line.getD (some 0) = l := by
  rw [← lineField_toNat] at h
  unfold ImageRecord.line
  split at h
  · rw [lineOfCode_some h.symm, Option.getD_some]
  · rename_i hno
    rw [lineOfCode_unnamed (by omega) (by omega), Option.getD_none]
    have hzero : (lineBits (some 0)).toNat = (lineBits l).toNat := h.symm
    exact Option.some.inj ((lineOfCode_some rfl).symm.trans (lineOfCode_some hzero))

theorem burst_eq {w : Word} {b : BitVec 5} (h : b.toNat = if w.toNat ≤ 16 then w.toNat else 0) :
    (if w.toNat ≤ 16 then w.extractLsb' 0 5 else 0) = b := by
  apply BitVec.eq_of_toNat_eq
  rw [h]
  split
  · rw [field_toNat]
    omega
  · rfl

theorem phase_getD {b : Byte} {ph : Phase} (h : ph.bits.toNat = if b.toNat ≤ 2 then b.toNat else 0) :
    (phaseOfCode b).getD .fetch = ph := by
  split at h
  · rw [phaseOfCode_bits h.symm, Option.getD_some]
  · rw [phaseOfCode_none (by omega), Option.getD_none]
    cases ph
    · rfl
    all_goals cases h

/-! ### The done flags of a load (R164) -/

theorem marks_eq (r : ImageRecord) : r.marks = decide (r.disposition.toNat = 2 ∧ r.phase.toNat = 2
    ∧ (r.control.getLsbD 3 = true ∨ r.control.getLsbD 4 = true)) := by
  have hlow (i : Nat) (hi : i < 8) : (lowByte r.control).getLsbD i = r.control.getLsbD i := by
    unfold lowByte
    simp [hi]
  have htwo (b : Byte) : (b == 2) = decide (b.toNat = 2) := by
    rw [Bool.eq_iff_iff, beq_iff_eq, decide_eq_true_eq, ← BitVec.toNat_inj]
    rfl
  unfold ImageRecord.marks marksDone isNotify isEnd
  rw [hlow 4 (by decide), hlow 3 (by decide), htwo, htwo, Bool.eq_iff_iff]
  simp only [Bool.and_eq_true, Bool.or_eq_true, decide_eq_true_eq]
  tauto

theorem foldl_doneMask (m : ChannelId → Bool) (c : ChannelId) : ∀ (l : List ChannelId) (done : BitVec 8),
    (l.foldl (fun d k => if m k then d ||| doneMask k else d) done).getLsbD c.val =
      (done.getLsbD c.val || (decide (c ∈ l) && m c))
  | [], done => by simp
  | k :: l, done => by
    rw [List.foldl_cons, foldl_doneMask m c l]
    by_cases hm : m k = true
    · rw [if_pos hm, getLsbD_or_doneMask]
      by_cases hc : c = k
      · subst hc
        simp [hm]
      · simp [hc, beq_eq_false_iff_ne.mpr hc]
    · rw [if_neg hm]
      by_cases hc : c = k
      · subst hc
        simp [Bool.eq_false_iff.mpr hm]
      · simp [hc]

theorem doneFlag_loadImage (s : State) (c : ChannelId) :
    s.loadImage.doneFlag c = (s.doneFlag c || (imageRecord s.urgent.image c).marks) := by
  change (marksOf s.urgent.image s.window.done).getLsbD c.val = _
  rw [marksOf, foldl_doneMask (fun c => (imageRecord s.urgent.image c).marks), decide_eq_true (allChannels_mem c),
    Bool.true_and]
  rfl

/-- Settles O54: a record is decoded field by field, and its disposition is applied to what is loaded. -/
theorem imageRecordsLoad : Obligations.ImageRecordsLoad := by
  refine ⟨fun x r st d l b ph k hst hactive hd hl hb hph hk => ?load, fun s => ?image⟩
  case load =>
    intro y released
    have hstate : stateOfCode r.state = some st := stateOfCode_bits (hst.trans (by cases st <;> rfl)) hactive
    have hphase : ph.bits.toNat = if r.phase.toNat ≤ 2 then r.phase.toNat else 0 := by
      rw [← hph]
      cases ph <;> rfl
    have hload : x.restore r = y := restore_eq x hstate (Fin.ext ((domainOfCode_val _).trans hd.symm))
      (line_getD ((lineBits_toNat l).trans hl)) (burst_eq hb) (phase_getD hphase) ((wbOfCode_getD _).trans hk.symm)
    have hreleased : settledState y.state = released := settledState_eq st
    have hcontrol : y.control.getLsbD 3 = r.control.getLsbD 3 := by
      change (r.control.extractLsb' 0 8).getLsbD 3 = _
      simp
    refine ⟨fun h => ?_, fun h => ?_, fun h hm => ?_, fun h hw he => ?_, fun h hw he => ?_⟩
    · rw [loadRecord_plain x h, hload]
    · rw [loadRecord_redo x h, hload, Channel.redo, hreleased]
    · rw [loadRecord_skip x h, hload, skip_move (by exact hm), hreleased]
    · rw [loadRecord_skip x h, hload, skip_next (by exact hw) (hcontrol.trans he), hreleased]
    · rw [loadRecord_skip x h, hload, skip_end (by exact hw) (hcontrol.trans he)]
  case image =>
    intro r byte word long
    refine ⟨fun c => imageRecord_toNat s.urgent.image c, fun c => ⟨loadImage_getElem s c, ?_⟩, rfl⟩
    rw [doneFlag_loadImage, marks_eq]

end Sys2Proof.Machine
end

section
/-! SUPPORT. The validation of the image in numbers (R159 to R161). -/

namespace Sys2Proof.Machine

/-! ### The codes of a record's state and its transition (R160) -/

/-- The state codes that a record may carry (R160, check 2). -/
def Coded (n : Nat) : Prop := n ∈ [0, 1, 2, 4, 5, 6, 7]

theorem stateOfCode_coded {b : Byte} (h : Coded b.toNat) :
    ∃ st : ChannelState, stateOfCode b = some st ∧ st.bits.toNat = b.toNat := by
  have named (st : ChannelState) (hst : st ≠ .active) (hb : b.toNat = st.bits.toNat) :
      ∃ st : ChannelState, stateOfCode b = some st ∧ st.bits.toNat = b.toNat :=
    ⟨st, stateOfCode_bits hb hst, hb.symm⟩
  simp only [Coded, List.mem_cons, List.not_mem_nil, or_false] at h
  rcases h with h | h | h | h | h | h | h
  · exact named .idle nofun h
  · exact named .ready nofun h
  · exact named .waitReq nofun h
  · exact named .halted nofun h
  · exact named .faulted nofun h
  · exact named .faultWait nofun h
  · exact named .done nofun h

theorem stateOfCode_uncoded {b : Byte} (h : ¬ Coded b.toNat) : stateOfCode b = none := by
  simp only [Coded, List.mem_cons, List.not_mem_nil, or_false, not_or] at h
  unfold stateOfCode
  split
  case h_8 => rfl
  all_goals omega

theorem transitionOk_iff (old new : ChannelState) : transitionOk old new = true ↔
    new.bits.toNat = old.bits.toNat ∨ new.bits.toNat = 0
      ∨ (new.bits.toNat = 4 ∧ (old.bits.toNat = 1 ∨ old.bits.toNat = 2)) := by
  cases old <;> cases new <;> decide

theorem dispositionAllowed_iff (st : ChannelState) (phase : Byte) : dispositionAllowed st phase = true ↔
    st.bits.toNat ≠ 0 ∧ st.bits.toNat ≠ 7 ∧ st.bits.toNat ≠ 6 ∧ phase.toNat ≠ 0 := by
  have hphase : (phase != 0) = true ↔ phase.toNat ≠ 0 := bne_iff_ne.trans (not_congr BitVec.toNat_inj.symm)
  unfold dispositionAllowed
  rw [Bool.and_eq_true, hphase, ← and_assoc, ← and_assoc]
  refine and_congr_left fun _ => ?_
  cases st <;> decide

/-! ### The conditions on a context (R161) -/

theorem line_isSome_iff (r : ImageRecord) :
    r.line.isSome = true ↔ r.priorityLine.toNat / 16 ≤ 7 ∨ r.priorityLine.toNat / 16 = 15 := by
  unfold ImageRecord.line
  rw [← lineField_toNat]
  generalize r.priorityLine.extractLsb' 4 4 = x
  revert x
  decide

theorem line_named_iff (r : ImageRecord) (h : r.line.isSome = true) :
    (r.line != some none) = true ↔ r.priorityLine.toNat / 16 ≤ 7 := by
  unfold ImageRecord.line at h ⊢
  rw [← lineField_toNat]
  generalize r.priorityLine.extractLsb' 4 4 = x at h ⊢
  revert h
  revert x
  decide

theorem code_isSome_iff (b : Byte) : (wbOfCode b).isSome = true ↔ b.toNat = 1 ∨ b.toNat = 2 := by
  unfold wbOfCode
  split
  · rename_i h; exact ⟨fun _ => .inl h, fun _ => rfl⟩
  · rename_i h; exact ⟨fun _ => .inr h, fun _ => rfl⟩
  · rename_i h1 h2
    exact ⟨nofun, fun h => h.elim (fun h => absurd h h1) (fun h => absurd h h2)⟩

theorem bytesOf_eq (control : Byte) : bytesOf control = if control.toNat / 4 % 2 = 1 then 2 else 1 := by
  unfold bytesOf
  refine if_congr ?_ rfl rfl
  rw [BitVec.getLsbD, Nat.testBit_eq_decide_div_mod_eq, decide_eq_true_eq]

theorem domain_iff (s : State) (st : ChannelState) (b : Byte) :
    (match domainOfCode b with
      | some d => st == .done || s.domains[d].state == .opened
      | none => false) = true ↔
      b.toNat ≤ 15 ∧ (st ≠ .done → ∀ d : DomainId, d.val = b.toNat → s.domains[d].state = .opened) := by
  unfold domainOfCode
  by_cases h : b.toNat < 16
  · rw [dif_pos h]
    simp only [Bool.or_eq_true, beq_iff_eq, or_iff_not_imp_left]
    refine ⟨fun hopen => ⟨by omega, fun hst d hd => ?_⟩, fun ⟨_, hopen⟩ hst => hopen hst _ rfl⟩
    obtain rfl : d = ⟨b.toNat, h⟩ := Fin.ext hd
    exact hopen hst
  · rw [dif_neg h]
    exact ⟨nofun, fun ⟨hle, _⟩ => absurd hle (by omega)⟩

/-- What R161 asks of a record that is not loaded as IDLE, in numbers. -/
def ContextFits (s : State) (r : ImageRecord) : Prop :=
  let st := r.state.toNat
  let line := r.priorityLine.toNat / 16
  let kind := (lowByte r.control).toNat % 4
  let w := if (lowByte r.control).toNat / 4 % 2 = 1 then 2 else 1
  let left := r.remaining.toNat
  let phase := r.phase.toNat
  let memory (a : Nat) : Prop := a % w = 0 ∧ a + left * w - 1 ≤ 0x3FFFFF
  let port (p : Nat) : Prop := p ≤ 0xFF ∧ p % w = 0
  r.domain.toNat ≤ 15
  ∧ (st ≠ 7 → ∀ d : DomainId, d.val = r.domain.toNat → s.domains[d].state = .opened)
  ∧ 1 ≤ r.count.toNat ∧ left ≤ r.count.toNat
  ∧ phase ≤ 2
  ∧ 1 ≤ r.burst.toNat ∧ r.burst.toNat ≤ 16
  ∧ (line ≤ 7 ∨ line = 15) ∧ (r.code.toNat = 1 ∨ r.code.toNat = 2)
  ∧ (st = 2 → phase = 1 ∧ line ≤ 7 ∧ (kind = 1 ∨ kind = 2))
  ∧ (phase = 1 → 1 ≤ left)
  ∧ (st = 7 → phase = 2)
  ∧ (phase = 1 ∨ phase = 2 → r.descriptor.toNat % 16 = 0 ∧ r.descriptor.toNat ≤ 0x3FFFF0)
  ∧ (phase = 1 → (kind ≠ 3 → (if kind = 1 then port r.source.toNat else memory r.source.toNat))
      ∧ (if kind = 2 then port r.dest.toNat else memory r.dest.toNat))

theorem imp_iff (a b : Bool) : (!a || b) = true ↔ (a = true → b = true) := by
  cases a <;> simp

theorem bne_imp_iff (a b : ChannelState) (c : Bool) : (a != b || c) = true ↔ (a = b → c = true) := by
  rw [bne, imp_iff, beq_iff_eq]

/-- The sides of a record's element, over the beats left (R65, R66, R161). -/
theorem record_sidesOk_iff {r : ImageRecord} (hleft : 1 ≤ r.remaining.toNat) :
    let kind := (lowByte r.control).toNat % 4
    let w := if (lowByte r.control).toNat / 4 % 2 = 1 then 2 else 1
    let memory (a : Nat) : Prop := a % w = 0 ∧ a + r.remaining.toNat * w - 1 ≤ 0x3FFFFF
    let port (p : Nat) : Prop := p ≤ 0xFF ∧ p % w = 0
    r.element.sidesOk (spaceTop (.channel 0)) = true ↔
      (kind ≠ 3 → (if kind = 1 then port r.source.toNat else memory r.source.toNat))
      ∧ (if kind = 2 then port r.dest.toNat else memory r.dest.toNat) := by
  have h := sidesOk_iff (e := r.element) hleft (spaceTop (.channel 0))
  rw [bytesOf_eq] at h
  exact h

theorem contextOk_iff (s : State) {st : ChannelState} {r : ImageRecord} (hst : st.bits.toNat = r.state.toNat) :
    s.contextOk st r = true ↔ ContextFits s r := by
  have hphase (n : Byte) : (r.phase == n) = true ↔ r.phase.toNat = n.toNat := beq_iff_eq.trans BitVec.toNat_inj.symm
  have hmove : (r.phase == 1) = true ↔ r.phase.toNat = 1 := hphase 1
  have hdone2 : (r.phase == 2) = true ↔ r.phase.toNat = 2 := hphase 2
  have hwait : st = .waitReq ↔ r.state.toNat = 2 := by rw [← hst]; cases st <;> decide
  have hdone : st = .done ↔ r.state.toNat = 7 := by rw [← hst]; cases st <;> decide
  have hplaced : (r.phase == 0 || descAddrOk (.channel 0) r.descriptor) = true ↔
      r.phase.toNat = 0 ∨ (r.descriptor.toNat % 16 = 0 ∧ r.descriptor.toNat ≤ 0x3FFFF0) := by
    rw [Bool.or_eq_true, descAddrOk_channel_iff]
    exact or_congr_left (hphase 0)
  have hdomain := domain_iff s st r.domain
  rw [Ne, hdone] at hdomain
  unfold State.contextOk
  dsimp only
  simp only [Bool.and_eq_true, and_assoc, decide_eq_true_eq, line_isSome_iff, code_isSome_iff, hplaced, imp_iff, bne_imp_iff,
    hwait, hdone, hmove, hdone2, paced_iff]
  constructor
  · rintro ⟨h1, hcount, hleft, hphase, hburst, hburst', hline, hcode, hwaitMove, hbeats, hpaced, hend, hdesc, hsides⟩
    obtain ⟨hdom, hopen⟩ := hdomain.mp h1
    refine ⟨hdom, hopen, hcount, hleft, hphase, hburst, hburst', hline, hcode, fun h => ⟨hwaitMove h, ?_, (hpaced h).2⟩,
      hbeats, hend, fun h => hdesc.resolve_left (by omega), fun h => (record_sidesOk_iff (hbeats h)).mp (hsides h)⟩
    exact (line_named_iff r ((line_isSome_iff r).mpr hline)).mp (hpaced h).1
  · rintro ⟨hdom, hopen, hcount, hleft, hphase, hburst, hburst', hline, hcode, hwaits, hbeats, hend, hdesc, hsides⟩
    refine ⟨hdomain.mpr ⟨hdom, hopen⟩, hcount, hleft, hphase, hburst, hburst', hline, hcode,
      fun h => (hwaits h).1, hbeats, fun h => ⟨?_, (hwaits h).2.2⟩, hend, ?_, fun h => (record_sidesOk_iff (hbeats h)).mpr (hsides h)⟩
    · exact (line_named_iff r ((line_isSome_iff r).mpr hline)).mpr (hwaits h).2.1
    · by_cases h0 : r.phase.toNat = 0
      · exact .inl h0
      · exact .inr (hdesc (by omega))

/-! ### The first check that a record fails (R160) -/

/-- Record `r` fails against the on-chip state `old`, its first failing check being `k`, in numbers. -/
def RecordFails (s : State) (old : ChannelState) (r : ImageRecord) (k : LockKind) : Prop :=
  let st := r.state.toNat
  let coded : Prop := Coded st
  let reachable : Prop := st = old.bits.toNat ∨ st = 0 ∨ (st = 4 ∧ (old.bits.toNat = 1 ∨ old.bits.toNat = 2))
  let disposed : Prop := r.disposition.toNat ≤ 2
  let allowed : Prop := r.disposition.toNat = 0 ∨ (st ≠ 0 ∧ st ≠ 7 ∧ st ≠ 6 ∧ r.phase.toNat ≠ 0)
  (k = .badStateCode ∧ ¬ coded)
  ∨ (k = .badTransition ∧ coded ∧ ¬ reachable)
  ∨ (k = .badDisposition ∧ coded ∧ reachable ∧ ¬ disposed)
  ∨ (k = .dispositionNotAllowed ∧ coded ∧ reachable ∧ disposed ∧ ¬ allowed)
  ∨ (k = .badContext ∧ coded ∧ reachable ∧ disposed ∧ allowed ∧ st ≠ 0 ∧ ¬ ContextFits s r)

/-- One check of a chain of checks, the first that fails being the answer. -/
theorem ite_eq_some_iff {p : Prop} [Decidable p] {α : Type} {a k : α} {o : Option α} :
    (if p then some a else o) = some k ↔ (k = a ∧ p) ∨ (¬ p ∧ o = some k) := by
  by_cases h : p
  · simp [h, eq_comm]
  · simp [h]

/-- The checks of a record in their order, each with those before it passed (R159, R160). -/
theorem checks_iff {C R D A X K1 K2 K3 K4 K5 : Prop} (hC : C) :
    ((K2 ∧ ¬ R) ∨ (¬ ¬ R ∧ ((K3 ∧ ¬ D) ∨ (¬ ¬ D ∧ ((K4 ∧ ¬ A) ∨ (¬ ¬ A ∧ ((K5 ∧ X) ∨ (¬ X ∧ False)))))))) ↔
      (K1 ∧ ¬ C) ∨ (K2 ∧ C ∧ ¬ R) ∨ (K3 ∧ C ∧ R ∧ ¬ D) ∨ (K4 ∧ C ∧ R ∧ D ∧ ¬ A) ∨ (K5 ∧ C ∧ R ∧ D ∧ A ∧ X) := by
  by_cases hR : R
  · by_cases hD : D
    · by_cases hA : A
      · simp [hC, hR, hD, hA]
      · simp [hC, hR, hD, hA]
    · simp [hC, hR, hD]
  · simp [hC, hR]

theorem recordFault_iff (s : State) (old : ChannelState) (r : ImageRecord) (k : LockKind) :
    s.recordFault old r = some k ↔ RecordFails s old r k := by
  by_cases hcoded : Coded r.state.toNat
  · obtain ⟨st, hst, hbits⟩ := stateOfCode_coded hcoded
    have hallowed : (r.disposition != 0 && !dispositionAllowed st r.phase) = true ↔
        ¬ (r.disposition.toNat = 0 ∨ (r.state.toNat ≠ 0 ∧ r.state.toNat ≠ 7 ∧ r.state.toNat ≠ 6 ∧ r.phase.toNat ≠ 0)) := by
      have hzero : (r.disposition != 0) = true ↔ ¬ r.disposition.toNat = 0 :=
        bne_iff_ne.trans (not_congr BitVec.toNat_inj.symm)
      rw [Bool.and_eq_true, hzero, Bool.not_eq_true', ← Bool.not_eq_true, dispositionAllowed_iff, hbits, not_or]
    have hfits : (st != .idle && !s.contextOk st r) = true ↔ r.state.toNat ≠ 0 ∧ ¬ ContextFits s r := by
      have hidle : st ≠ .idle ↔ r.state.toNat ≠ 0 := by rw [← hbits]; cases st <;> decide
      rw [Bool.and_eq_true, bne_iff_ne, hidle, Bool.not_eq_true', ← Bool.not_eq_true, contextOk_iff s hbits]
    have hreachable : (!transitionOk old st) = true ↔ ¬ (r.state.toNat = old.bits.toNat ∨ r.state.toNat = 0
        ∨ (r.state.toNat = 4 ∧ (old.bits.toNat = 1 ∨ old.bits.toNat = 2))) := by
      rw [Bool.not_eq_true', ← Bool.not_eq_true, transitionOk_iff, hbits]
    unfold State.recordFault RecordFails
    simp only [hst, ite_eq_some_iff, hreachable, hallowed, hfits, ← not_le (b := 2), reduceCtorEq]
    exact checks_iff hcoded
  · unfold State.recordFault RecordFails
    simp only [stateOfCode_uncoded hcoded, hcoded]
    simp [eq_comm]

end Sys2Proof.Machine
end

section
/-! SUPPORT. The judgement of the whole image, the end of the restore, and the proof of
`Obligations.RestoreReadsAndJudges` (R85, R157 to R165). -/

namespace Sys2Proof.Machine

/-! ### The judgement of the image (R159) -/

/-- In a list in ascending order the first answer is that of the least member that has one. -/
theorem findSome?_of_least {α β : Type} [LinearOrder α] {f : α → Option β} {c : α} {b : β} (hb : f c = some b)
    (hleast : ∀ c', c' < c → f c' = none) : ∀ {l : List α}, l.Pairwise (· < ·) → c ∈ l → l.findSome? f = some b
  | a :: l, hl, hc => by
    obtain ⟨hbelow, hsorted⟩ := List.pairwise_cons.mp hl
    rcases List.mem_cons.mp hc with rfl | hc
    · rw [List.findSome?_cons, hb]
    · rw [List.findSome?_cons, hleast a (hbelow c hc)]
      exact findSome?_of_least hb hleast hsorted hc

theorem relocationOf_iff (ws : List Word) :
    relocationOk (relocationOf ws) = true ↔ imageLong ws 4 % 0x200 = 0 ∧ imageLong ws 4 ≤ 0xFFFE00 := by
  have hslot : (relocationOf ws).toNat = imageLong ws 4 := imageLong_eq ws rfl
  unfold relocationOk
  rw [Bool.and_eq_true, beq_iff_eq, decide_eq_true_eq, hslot]
  rfl

section ImageFault

variable {s : State}

theorem imageFault_relocation (h : ¬ relocationOk (relocationOf s.urgent.image) = true) :
    s.imageFault = some (.badRelocation, 8) := if_pos (by rw [Bool.not_eq_true', ← Bool.not_eq_true]; exact h)

variable (h : relocationOk (relocationOf s.urgent.image) = true)

include h

theorem imageFault_records : s.imageFault = allChannels.findSome? (fun c =>
    (s.recordFault s.channels[c].state (imageRecord s.urgent.image c)).map (fun k => (k, c.val))) :=
  if_neg (by rw [h]; nofun)

theorem imageFault_first {c : ChannelId} {k : LockKind}
    (hk : s.recordFault s.channels[c].state (imageRecord s.urgent.image c) = some k)
    (hfirst : ∀ c' : ChannelId, c' < c → s.recordFault s.channels[c'].state (imageRecord s.urgent.image c') = none) :
    s.imageFault = some (k, c.val) := by
  rw [imageFault_records h]
  exact findSome?_of_least (by rw [hk]; rfl) (fun c' hc => by rw [hfirst c' hc]; rfl) (by decide) (allChannels_mem c)

theorem imageFault_none
    (hnone : ∀ c : ChannelId, s.recordFault s.channels[c].state (imageRecord s.urgent.image c) = none) :
    s.imageFault = none := by
  rw [imageFault_records h, List.findSome?_eq_none_iff]
  exact fun c _ => by rw [hnone c]; rfl

end ImageFault

theorem recordFault_eq_none_iff (s : State) (old : ChannelState) (r : ImageRecord) :
    s.recordFault old r = none ↔ ∀ k, ¬ RecordFails s old r k := by
  rw [Option.eq_none_iff_forall_ne_some]
  exact forall_congr' fun k => not_congr (recordFault_iff s old r k)

/-! ### The end of the restore (R157, R159, R165) -/

section RestoreRead

variable {s : State} {a : Access} (h : s.Carrying .urgent a) (hm : s.urgent.mode = .urgentRestore)

include h hm in
theorem exec_restoreReadEnd (e : BusEnd) (preq : BitVec 8) : exec (.restoreReadEnd e preq) s =
    .next (State.restoreReadEnd (State.sampleLines { s with sbi := s.sbi.ended } preq) a e).settleBus :=
  congrArg Host.Outcome.next (accessEnd_carried h (by rw [hm]; rfl) _)

end RestoreRead

section RestoreReadEnd

variable {g : State} {a : Access} (hw : a.width = .word) (sd : Word)

include hw

theorem restoreReadEnd_next (h : g.urgent.readProgress < 143) : g.restoreReadEnd a (.ready sd) = State.handOver { g with
      urgent := { g.urgent with image := g.urgent.image ++ [sd], readProgress := g.urgent.readProgress + 1 } } .urgent
    (readWord (g.urgent.saveBase + BitVec.ofNat 24 (2 * (g.urgent.readProgress + 1)))) := by
  unfold State.restoreReadEnd
  dsimp only
  rw [taken_word hw, if_neg (by change g.urgent.readProgress + 1 ≠ 144; omega)]
  rfl

theorem restoreReadEnd_full (h : g.urgent.readProgress = 143) : g.restoreReadEnd a (.ready sd) =
    State.finishRestore { g with
      urgent := { g.urgent with image := g.urgent.image ++ [sd], readProgress := 144 } } := by
  unfold State.restoreReadEnd
  dsimp only
  rw [taken_word hw, if_pos (by change g.urgent.readProgress + 1 = 144; omega), h]

end RestoreReadEnd

theorem finishRestore_locks {g : State} {k : LockKind} {n : Nat} (h : g.imageFault = some (k, n)) :
    g.finishRestore = g.lockPart k n := by
  unfold State.finishRestore
  rw [h]

theorem finishRestore_loads {g : State} (h : g.imageFault = none) : g.finishRestore = g.loadImage.relocate := by
  unfold State.finishRestore
  rw [h]

/-- The save base that the relocation slot names (R165). -/
theorem relocation_base (ws : List Word) :
    physicalOf (relocationOf ws) = (wordAt ws 3).extractLsb' 0 8 ++ wordAt ws 2 := by
  change (wordAt ws 3 ++ wordAt ws 2).extractLsb' 0 24 = _
  apply BitVec.eq_of_toNat_eq
  rw [field_toNat, append_toNat, append_toNat, field_toNat]
  have := (wordAt ws 2).isLt
  omega

section Relocate

variable (g : State)

theorem relocate_latched {src : Source} (h : g.urgent.latch = some src) : g.relocate = { g with
    urgent := { g.urgent with
      saveBase := physicalOf (relocationOf g.urgent.image), mode := .urgentEntry, step := .drain
      entryCause := some src, latch := none } } := by
  unfold State.relocate
  simp only [h]

theorem relocate_clear (h : g.urgent.latch = none) : g.relocate = State.wakeLines { g with
    urgent := { g.urgent with saveBase := physicalOf (relocationOf g.urgent.image), mode := .normal } } g.pins.preq := by
  unfold State.relocate
  simp only [h]

end Relocate

theorem settleBus_frame (t : State) : t.settleBus = { t with sbi := t.settleBus.sbi } := by
  unfold State.settleBus
  split <;> rfl

/-- Settles O53: the words are read one by one, and the image is judged record by record before it is loaded. -/
theorem restoreReadsAndJudges : Obligations.RestoreReadsAndJudges := by
  refine ⟨fun s a sd preq h hw hm => ?rows, fun s => ?judged⟩
  case rows =>
    intro full
    have hrow := exec_restoreReadEnd h hm
    have hfull (hp : s.urgent.readProgress = 143) :
        exec (.restoreReadEnd (.ready sd) preq) s = .next full.finishRestore.settleBus :=
      (hrow (.ready sd) preq).trans (congrArg (fun t => Host.Outcome.next (State.settleBus t))
        (restoreReadEnd_full (g := State.sampleLines { s with sbi := s.sbi.ended } preq) hw sd hp))
    refine ⟨fun hlt => ?_, (hrow .busError preq).trans (congrArg Host.Outcome.next (lockPart_settled _ _ _)),
      fun hp k n hk => ?_, fun hp hk => ?_⟩
    · rw [hrow, restoreReadEnd_next hw sd (by exact hlt), settleBus_handOver]
      rfl
    · rw [hfull hp, finishRestore_locks hk, lockPart_settled]
    · intro base loaded
      have hurgent : loaded.urgent = full.urgent := State.loadImage_urgent full
      have hsbi : loaded.sbi = s.sbi.ended := State.loadImage_sbi full
      have hengine : loaded.engine = s.engine := State.loadImage_engine full
      have hpins : loaded.pins.preq = preq := congrArg Pins.preq (State.loadImage_pins full)
      have hresetting : loaded.window.resetting = s.window.resetting :=
        (congrArg Window.resetting (State.loadImage_window full)).trans rfl
      have hdone := hfull hp
      rw [finishRestore_loads hk] at hdone
      have hbase : physicalOf (relocationOf loaded.urgent.image) = base := by
        rw [hurgent]
        exact relocation_base _
      change exec (.restoreReadEnd (.ready sd) preq) s = .next loaded.relocate.settleBus at hdone
      generalize loaded = g at *
      refine ⟨fun src hl => ?_, fun hl => ?_⟩
      · rw [relocate_latched g (by rw [hurgent]; exact hl), settleBus_mode (by exact nofun), hbase, hurgent, hsbi] at hdone
        exact ⟨_, hdone, rfl, rfl⟩
      · rw [relocate_clear g (by rw [hurgent]; exact hl), hbase, hurgent, hpins] at hdone
        refine ⟨_, hdone, ?_, fun c => ?_, fun hv => ?_, ?_⟩
        · rw [State.settleBus_urgent, wakeLines_frame]
        · rw [State.settleBus_channels, wakeLines_getElem, Channel.wake_eq]
          dsimp only
          rw [← ite_and, hresetting]
          refine if_congr ?_ rfl rfl
          simp only [true_and, Bool.not_eq_true]
        · rw [settleBus_free (by rw [wakeLines_frame]; exact (congrArg Engine.service hengine).trans hv), wakeLines_frame]
          rw [hsbi]
        · rw [settleBus_frame, wakeLines_frame]
  case judged =>
    intro byte word long stateCode relocation context fails
    have hcode (st : ChannelState) : st.bits.toNat = stateCode st := by cases st <;> rfl
    have hfails (c : ChannelId) (k : LockKind) :
        RecordFails s s.channels[c].state (imageRecord s.urgent.image c) k ↔ fails c k := by
      obtain ⟨h1, h2, h3, h4, h5, h6, h7, h8, h9, h10, h11, h12, h13, h14⟩ := imageRecord_toNat s.urgent.image c
      have hcontrol : (lowByte (imageRecord s.urgent.image c).control).toNat = byte (32 + 32 * c.val + 6) :=
        imageByte_low s.urgent.image (by omega)
      unfold RecordFails ContextFits
      simp only [h1, h2, h3, h4, h5, h7, h8, h9, h10, h11, h13, h14, hcontrol, hcode]
      rfl
    have hplace : relocationOk (relocationOf s.urgent.image) = true ↔ relocation := relocationOf_iff s.urgent.image
    have hnone (c : ChannelId) (hc : ∀ k, ¬ fails c k) :
        s.recordFault s.channels[c].state (imageRecord s.urgent.image c) = none :=
      (recordFault_eq_none_iff s _ _).mpr fun k => mt (hfails c k).mp (hc k)
    refine ⟨fun h => imageFault_relocation (mt hplace.mp h), fun h => ⟨fun c k hk hfirst => ?_, fun h' => ?_⟩⟩
    · exact imageFault_first (hplace.mpr h) ((recordFault_iff s _ _ k).mpr ((hfails c k).mpr hk))
        fun c' hc => hnone c' (hfirst c' hc)
    · exact imageFault_none (hplace.mpr h) fun c => hnone c (h' c)

end Sys2Proof.Machine
end

section
/-! SUPPORT. The image as the save has written it, and the proof of `Obligations.UneditedImageRestoresItself` (R161). -/

namespace Sys2Proof.Machine

/-- The record that the save writes of a channel, as the image buffer holds it (R143). -/
def Channel.saved (x : Channel) : ImageRecord :=
  { state := x.state.bits.setWidth 8, disposition := 0, domain := BitVec.ofNat 8 x.domain.val
    priorityLine := lineBits x.line ++ 0#2 ++ BitVec.ofNat 2 x.priority.val, burst := x.burst.setWidth 16
    control := 0#8 ++ x.control, count := x.count, remaining := x.remaining, descriptor := x.descriptor
    source := x.source, dest := x.dest, next := x.next, phase := x.phase.bits.setWidth 8, code := x.code.bits.setWidth 8 }

theorem lowByte_bytes (a b : Byte) : lowByte (a ++ b) = b := by
  apply BitVec.eq_of_toNat_eq
  have := b.isLt
  unfold lowByte
  rw [field_toNat, append_toNat]
  omega

theorem highByte_bytes (a b : Byte) : highByte (a ++ b) = a := by
  apply BitVec.eq_of_toNat_eq
  have := a.isLt
  have := b.isLt
  unfold highByte
  rw [field_toNat, append_toNat]
  omega

theorem words_of_long (l : Long) : highWord l ++ lowWord l = l := by
  apply BitVec.eq_of_toNat_eq
  rw [append_toNat, highWord_toNat, lowWord_toNat]
  omega

theorem imageRecord_imageWords (s : State) (c : ChannelId) : imageRecord s.imageWords c = s.channels[c].saved := by
  have hword {j : Nat} (hj : j < 16) := imageWords_record s c hj
  have hfirst : wordAt s.imageWords (16 + 16 * c.val) = wordAt s.channels[c].record 0 := hword (j := 0) (by decide)
  have hlong {j : Nat} (hj : j + 1 < 16) : longAt s.imageWords (16 + 16 * c.val + j) =
      wordAt s.channels[c].record (j + 1) ++ wordAt s.channels[c].record j := by
    unfold longAt
    rw [hword (Nat.lt_of_succ_lt hj), Nat.add_assoc (16 + 16 * c.val) j 1, hword hj]
  unfold imageRecord Channel.saved
  dsimp only
  rw [hfirst, hword (j := 1) (by decide), hword (j := 2) (by decide), hword (j := 3) (by decide),
    hword (j := 4) (by decide), hword (j := 5) (by decide), hlong (j := 6) (by decide), hlong (j := 8) (by decide),
    hlong (j := 10) (by decide), hlong (j := 12) (by decide), hword (j := 14) (by decide)]
  rw [ImageRecord.mk.injEq]
  exact ⟨lowByte_bytes _ _, highByte_bytes _ _, lowByte_bytes _ _, highByte_bytes _ _, rfl, rfl, rfl, rfl, words_of_long _,
    words_of_long _, words_of_long _, words_of_long _, lowByte_bytes _ _, highByte_bytes _ _⟩

/-! ### The record as it is judged (R160, R161) -/

section Saved

variable (x : Channel)

theorem saved_state : x.saved.state.toNat = x.state.bits.toNat := rfl

theorem saved_phase : x.saved.phase.toNat = x.phase.bits.toNat := rfl

theorem saved_domain : x.saved.domain.toNat = x.domain.val := by
  change x.domain.val % 2 ^ 8 = _
  omega

theorem saved_line : (x.saved.priorityLine.extractLsb' 4 4).toNat = (lineBits x.line).toNat := by
  change ((lineBits x.line ++ 0#2 ++ BitVec.ofNat 2 x.priority.val).extractLsb' 4 4).toNat = _
  have := (lineBits x.line).isLt
  rw [field_toNat, append_toNat, append_toNat]
  simp only [BitVec.toNat_ofNat]
  omega

theorem saved_priority : Fin.ofNat 4 (x.saved.priorityLine.toNat % 4) = x.priority := by
  apply Fin.ext
  change ((lineBits x.line ++ 0#2 ++ BitVec.ofNat 2 x.priority.val).toNat % 4) % 4 = x.priority.val
  rw [append_toNat, append_toNat]
  simp only [BitVec.toNat_ofNat]
  omega

theorem saved_control : lowByte x.saved.control = x.control := lowByte_bytes _ _

theorem saved_element : x.saved.element = x.element := by
  unfold ImageRecord.element
  rw [saved_control]
  rfl

theorem saved_code : (wbOfCode x.saved.code) = some x.code := by
  change wbOfCode (x.code.bits.setWidth 8) = _
  cases x.code <;> rfl

end Saved

/-- A saved record loads the context that it was saved from (R163). -/
theorem loadRecord_saved {x : Channel} (hactive : x.state ≠ .active) (hh : x.pendingHalt = false)
    (ha : x.pendingAbort = false) (hb : x.burst.toNat ≤ 16) : x.loadRecord x.saved = x := by
  have hburst : (if x.saved.burst.toNat ≤ 16 then x.saved.burst.extractLsb' 0 5 else 0) = x.burst :=
    burst_eq (if_pos hb).symm
  have hload : x.restore x.saved = x.loaded x.saved x.state x.domain x.line x.burst x.phase x.code := by
    refine restore_eq x (stateOfCode_bits (saved_state x) hactive) (Fin.ext ?_) ?_ hburst ?_ ?_
    · rw [domainOfCode_val, saved_domain, if_pos (by omega)]
    · rw [ImageRecord.line, lineOfCode_some (saved_line x)]
      rfl
    · rw [phaseOfCode_bits (saved_phase x)]
      rfl
    · rw [saved_code]
      rfl
  have hstay : ¬ (x.state = .idle ∧ x.state ≠ .idle) := fun h => h.2 h.1
  have hcontrol : x.saved.control.extractLsb' 0 8 = x.control := saved_control x
  rw [loadRecord_plain x rfl, hload, Channel.loaded, saved_priority, if_neg hstay, if_neg hstay, hcontrol]
  congr 1
  · exact hh.symm
  · exact ha.symm

/-- The conditions of R161 hold of a saved record that is not IDLE. -/
theorem contextFits_saved {s : State} {c : ChannelId} (h : Restorable s c) (hidle : s.channels[c].state ≠ .idle) :
    ContextFits s s.channels[c].saved := by
  have hmoving (ph : Phase) : ph.bits.toNat = 1 → ph = .move := by cases ph <;> decide
  have hfetched (ph : Phase) : ph.bits.toNat = 1 ∨ ph.bits.toNat = 2 → ph ≠ .fetch := by cases ph <;> decide
  have hwaiting (st : ChannelState) : st.bits.toNat = 2 → st = .waitReq := by cases st <;> decide
  have hended (st : ChannelState) : st.bits.toNat = 7 → st = .done := by cases st <;> decide
  obtain ⟨-, -, -, hburst, hcontext⟩ := h
  obtain ⟨hopen, hcount, hleft, hburst', hwait, hdone, hdesc, hmove⟩ := hcontext hidle
  have hline : s.channels[c].saved.line = some s.channels[c].line := lineOfCode_some (saved_line _)
  have hsome : s.channels[c].saved.line.isSome = true := by rw [hline]; rfl
  refine ⟨?domain, ?opened, hcount, hleft, ?phase, hburst', hburst, (line_isSome_iff _).mp hsome,
    (code_isSome_iff _).mp (by rw [saved_code]; rfl), fun h2 => ?waits, fun h1 => (hmove (hmoving _ h1)).1, fun h7 => ?ended,
    fun hp => (descAddrOk_channel_iff c _).mp (hdesc (hfetched _ hp)), fun h1 => ?sides⟩
  case domain => rw [saved_domain]; omega
  case opened =>
    intro h7 d hd
    rw [show d = s.channels[c].domain from Fin.ext (hd.trans (saved_domain _))]
    exact hopen.resolve_left fun hst => h7 (by rw [saved_state, hst]; rfl)
  case phase => rw [saved_phase]; cases s.channels[c].phase <;> decide
  case waits =>
    obtain ⟨hphase, hnamed, hpaced⟩ := hwait (hwaiting _ h2)
    refine ⟨by rw [saved_phase, hphase]; rfl, (line_named_iff _ hsome).mp ?_, ?_⟩
    · rw [hline, bne_iff_ne]
      intro h0
      rw [Option.some.inj h0] at hnamed
      cases hnamed
    · rw [saved_control]
      exact (paced_iff _).mp hpaced
  case ended => rw [saved_phase, hdone (hended _ h7)]; rfl
  case sides =>
    obtain ⟨hbeats, hsides⟩ := hmove (hmoving _ h1)
    refine (record_sidesOk_iff hbeats).mp ?_
    rw [saved_element]
    exact hsides

theorem recordFault_saved {s : State} {c : ChannelId} (h : Restorable s c) :
    s.recordFault s.channels[c].state s.channels[c].saved = none := by
  have hcoded (st : ChannelState) (hst : st ≠ .active) : Coded st.bits.toNat := by
    unfold Coded
    revert hst
    cases st <;> decide
  rw [recordFault_eq_none_iff]
  rintro k (⟨-, h1⟩ | ⟨-, -, h2⟩ | ⟨-, -, -, h3⟩ | ⟨-, -, -, -, h4⟩ | ⟨-, -, -, -, -, hidle, h5⟩)
  · exact h1 (hcoded _ h.1)
  · exact h2 (.inl rfl)
  · exact h3 (Nat.zero_le _)
  · exact h4 (.inl rfl)
  · exact h5 (contextFits_saved h fun hst => hidle (by rw [saved_state, hst]; rfl))

/-- Settles O55: every record passes its checks and loads the context that it was saved from. -/
theorem uneditedImageRestoresItself : Obligations.UneditedImageRestoresItself := by
  intro s hall hbase himage
  have hrecord (c : ChannelId) : imageRecord s.urgent.image c = s.channels[c].saved := by
    rw [himage, imageRecord_imageWords]
  have hslot : relocationOf s.urgent.image = s.urgent.saveBase.setWidth 32 := by
    rw [himage]
    unfold relocationOf longAt
    rw [imageWords_header s (by decide), imageWords_header s (by decide)]
    exact words_of_long _
  have hplace : relocationOk (relocationOf s.urgent.image) = true := by
    have hlt := s.urgent.saveBase.isLt
    have hnat : (s.urgent.saveBase.setWidth 32).toNat = s.urgent.saveBase.toNat := rfl
    unfold relocationOk
    rw [hslot, Bool.and_eq_true, beq_iff_eq, decide_eq_true_eq, hnat]
    change _ ∧ _ ≤ 0xFFFE00
    omega
  refine ⟨imageFault_none hplace fun c => ?_, Vector.ext fun i hi => ?_, ?_⟩
  · rw [hrecord]
    exact recordFault_saved (hall c)
  · have hload := loadImage_getElem s ⟨i, hi⟩
    obtain ⟨hactive, hh, ha, hb, -⟩ := hall ⟨i, hi⟩
    rw [hrecord, loadRecord_saved hactive hh ha hb] at hload
    exact hload
  · refine BitVec.eq_of_getLsbD_eq fun i hi => ?_
    have hflag := doneFlag_loadImage s ⟨i, hi⟩
    rw [hrecord] at hflag
    exact hflag.trans (Bool.or_false _)

end Sys2Proof.Machine
end

section
/-! SUPPORT. The SBI's tenure of the bus, its outputs, and the proof of `Obligations.BusTenureFollowsGrant` (R169 to R173). -/

namespace Sys2Proof.Machine

/-! ### The next access (R173) -/

section Next

variable {b : Sbi} {a : Access}

theorem Sbi.next_walker (h : b.walker = some a) : b.next = some (.walker, a) := by
  unfold Sbi.next
  rw [h]

theorem Sbi.next_engine (hw : b.walker = none) (h : b.engine = some a) : b.next = some (.engine, a) := by
  unfold Sbi.next
  rw [hw, h]

theorem Sbi.next_urgent (hw : b.walker = none) (he : b.engine = none) (h : b.urgent = some a) :
    b.next = some (.urgent, a) := by
  unfold Sbi.next
  rw [hw, he, h]

end Next

theorem Sbi.anyPending_iff (b : Sbi) : b.anyPending = true ↔ b.walker ≠ none ∨ b.engine ≠ none ∨ b.urgent ≠ none := by
  unfold Sbi.anyPending Sbi.next
  cases b.walker <;> cases b.engine <;> cases b.urgent <;> simp

/-! ### What the OWNER does with no access in flight (R170, R173) -/

theorem Sbi.settle_waits {b : Sbi} (h : b.tenure ≠ .owner ∨ b.inFlight ≠ none) : b.settle = b :=
  if_neg fun k => h.elim (fun h => h k.1) (fun h => h k.2)

section Settle

variable {b : Sbi} (ho : b.tenure = .owner) (hf : b.inFlight = none)

include ho hf

theorem Sbi.settle_releases (h : b.anyPending = false) : b.settle = { b with tenure := .releasing, granted := false } := by
  unfold Sbi.settle
  rw [if_pos ⟨ho, hf⟩, h, if_neg nofun]

theorem Sbi.settle_requests (h : b.anyPending = true) (hg : b.granted = false) :
    b.settle = { b with tenure := .requesting } := by
  unfold Sbi.settle
  rw [if_pos ⟨ho, hf⟩, if_pos h, hg, if_neg nofun]

theorem Sbi.settle_begins (hg : b.granted = true) {r : Slot} {a : Access} (hn : b.next = some (r, a)) :
    b.settle = { b.setSlot r none with inFlight := some (r, a) } := by
  have hpending : b.anyPending = true := by
    unfold Sbi.anyPending
    rw [hn]
    rfl
  unfold Sbi.settle Sbi.begin
  rw [if_pos ⟨ho, hf⟩, if_pos hpending, if_pos hg, hn]

end Settle

/-! ### The grant's events (R170) -/

section Rows

variable {s : State} (hrun : s.Running)

include hrun

theorem exec_busGrant : exec .busGrant s = .next { s with sbi := s.sbi.grant } :=
  congrArg Host.Outcome.next (unlessReset_running hrun)

theorem exec_busGrantDeasserted : exec .busGrantDeasserted s = .next { s with sbi := s.sbi.grantEnds } :=
  congrArg Host.Outcome.next (unlessReset_running hrun)

end Rows

/-- The access that begins as the bus is granted. -/
theorem Sbi.grant_begins {b : Sbi} (h : b.tenure = .requesting) (hf : b.inFlight = none) {r : Slot} {a : Access}
    (hn : b.next = some (r, a)) : b.grant =
    { Sbi.setSlot { b with tenure := .owner, granted := true } r none with inFlight := some (r, a) } :=
  (if_pos h).trans (Sbi.settle_begins (b := { b with tenure := .owner, granted := true }) rfl hf rfl hn)

section GrantEnds

variable {b : Sbi}

theorem Sbi.grantEnds_owner (h : b.tenure = .owner) : b.grantEnds = Sbi.settle { b with granted := false } := by
  unfold Sbi.grantEnds
  rw [h]

theorem Sbi.grantEnds_releasing (h : b.tenure = .releasing) :
    b.grantEnds = { b with tenure := if b.anyPending = true then .requesting else .idle } := by
  unfold Sbi.grantEnds
  rw [h]

theorem Sbi.grantEnds_other (h : b.tenure = .idle ∨ b.tenure = .requesting) : b.grantEnds = b := by
  unfold Sbi.grantEnds
  rcases h with h | h <;> rw [h]

theorem Sbi.grantEnds_free (h : b.tenure = .owner) (hf : b.inFlight = none) : b.grantEnds = { b with
    granted := false, tenure := if b.anyPending = true then .requesting else .releasing } := by
  rw [Sbi.grantEnds_owner h]
  by_cases hp : b.anyPending = true
  · rw [if_pos hp, Sbi.settle_requests (by exact h) (by exact hf) (by exact hp) rfl]
  · rw [if_neg hp, Sbi.settle_releases (by exact h) (by exact hf) (by exact Bool.eq_false_iff.mpr hp)]

end GrantEnds

/-! ### The outputs (R171) -/

theorem busOutputs_owner {s : State} (hrun : s.Running) (ho : s.sbi.tenure = .owner) :
    s.busOutputs = s.sbi.inFlight.map (fun p => p.2.outputs) :=
  if_neg fun h => h.elim (fun h => Bool.false_ne_true (hrun.symm.trans h)) (fun h => h ho)

theorem busOutputs_iff {s : State} (hrun : s.Running) :
    s.busOutputs ≠ none ↔ s.sbi.tenure = .owner ∧ s.sbi.inFlight ≠ none := by
  by_cases ho : s.sbi.tenure = .owner
  · rw [busOutputs_owner hrun ho, Ne, Option.map_eq_none_iff]
    exact ⟨fun h => ⟨ho, h⟩, fun h => h.2⟩
  · have hfloat : s.busOutputs = none := if_pos (.inr ho)
    exact ⟨fun h => absurd hfloat h, fun h => absurd h.1 ho⟩

section Outputs

variable {a : Access}

theorem isNone_eq_decide (w : Option Word) : w.isNone = decide (w = none) := by cases w <;> rfl

theorem outputs_word (h : a.width = .word) : a.outputs =
    { sa := a.address, memory := decide (a.space = .memory), sbe0 := true, sbe1 := true,
      read := decide (a.write = none), low := a.write.map (fun v => v.extractLsb' 0 8),
      high := a.write.map (fun v => v.extractLsb' 8 8) } := by
  unfold Access.outputs
  rw [h, isNone_eq_decide]
  rfl

variable (h : a.width = .byte)

include h

theorem outputs_evenByte (hp : a.address.getLsbD 0 = false) : a.outputs =
    { sa := a.address, memory := decide (a.space = .memory), sbe0 := true, sbe1 := false,
      read := decide (a.write = none), low := a.write.map (fun v => v.extractLsb' 0 8), high := none } := by
  unfold Access.outputs
  rw [h, isNone_eq_decide, hp]
  rfl

theorem outputs_oddByte (hp : a.address.getLsbD 0 = true) : a.outputs =
    { sa := a.address, memory := decide (a.space = .memory), sbe0 := false, sbe1 := true,
      read := decide (a.write = none), low := none, high := a.write.map (fun v => v.extractLsb' 0 8) } := by
  unfold Access.outputs
  rw [h, isNone_eq_decide, hp]
  rfl

end Outputs

/-- When the SBI settles at the end of a step, and when it keeps the bus for a walk (R34, R36, R170). -/
theorem settleBus_eq (t : State) : t.settleBus =
    if t.engine.service ≠ .none ∧ t.walker.engineWaiting ≠ none ∧ t.walker.state = .idle ∧ t.urgent.mode = .normal
      ∧ t.window.resetting = false ∧ t.sbi.granted = true ∧ t.sbi.anyPending = false then t
    else { t with sbi := t.sbi.settle } := by
  unfold State.settleBus State.walkDue Walker.busy
  refine if_congr ?_ rfl rfl
  simp [Option.isSome_iff_ne_none, and_assoc]

/-- Settles O59: the grant's events and the settling of the SBI, case by case, and the lanes of an access. -/
theorem busTenureFollowsGrant : Obligations.BusTenureFollowsGrant := by
  refine ⟨fun s hrun => ?rows, fun b => ?settles, fun t => settleBus_eq t, fun srdy serr sd => ?ends,
    fun s a sd preq h hw hm hp ho hwalker hengine => ?restore⟩
  case rows =>
    rw [exec_busGrant hrun, exec_busGrantDeasserted hrun]
    refine ⟨fun ht hf => ⟨fun a ha => ?_, fun a hw ha => ?_, fun a hw he ha => ?_⟩, fun ht => ?_, fun ho hf => ?_,
      fun ho hf => ?_, fun ht => ?_, fun ht => ?_, ?_, busOutputs_iff hrun, fun r a ho hf => ?_⟩
    · rw [Sbi.grant_begins ht hf (Sbi.next_walker ha)]
      rfl
    · rw [Sbi.grant_begins ht hf (Sbi.next_engine hw ha)]
      rfl
    · rw [Sbi.grant_begins ht hf (Sbi.next_urgent hw he ha)]
      rfl
    · rw [Sbi.grant, if_neg ht]
    · obtain ⟨x, hx⟩ := hf
      rw [Sbi.grantEnds_owner ho, Sbi.settle_waits (.inr (by rw [hx]; nofun))]
    · rw [Sbi.grantEnds_free ho hf]
    · rw [Sbi.grantEnds_releasing ht]
    · rw [Sbi.grantEnds_other ht]
    · simp [State.busRequested, hrun]
    · intro low high driven
      have hout : s.busOutputs = some a.outputs := by rw [busOutputs_owner hrun ho, hf]; rfl
      refine ⟨fun hw => ?_, fun hw hp => ?_, fun hw hp => ?_⟩
      · exact hout.trans (congrArg some (outputs_word hw))
      · exact hout.trans (congrArg some (outputs_evenByte hw ((getLsbD_zero_eq_false _).mpr hp)))
      · refine hout.trans (congrArg some (outputs_oddByte hw ?_))
        rw [← Bool.not_eq_false, getLsbD_zero_eq_false]
        omega
  case settles =>
    refine ⟨Sbi.anyPending_iff b, Sbi.settle_waits, fun ho hf => ⟨Sbi.settle_releases ho hf, Sbi.settle_requests ho hf,
      fun a hg ha => ?_, fun a hg hw ha => ?_, fun a hg hw he ha => ?_⟩⟩
    · exact Sbi.settle_begins ho hf hg (Sbi.next_walker ha)
    · exact Sbi.settle_begins ho hf hg (Sbi.next_engine hw ha)
    · exact Sbi.settle_begins ho hf hg (Sbi.next_urgent hw he ha)
  case ends =>
    refine ⟨fun h => ?_, fun h h' => ?_, fun h h' => ?_⟩
    all_goals unfold busEndOf
    · rw [if_pos h]
    · rw [h, if_neg nofun, if_pos h']
    · rw [h, h', if_neg nofun, if_neg nofun]
  case restore =>
    intro x
    let b : Sbi := { s.sbi with inFlight := none, urgent := some x }
    have hasked : s.sbi.ended.handOver .urgent x = b := if_neg (by exact ne_of_eq_of_ne ho (by decide))
    refine ⟨_, by rw [exec_restoreReadEnd h hm, restoreReadEnd_next hw sd (by exact hp), settleBus_handOver], ?_⟩
    change (s.sbi.ended.handOver .urgent x).settle = _
    have hnext : b.next = some (.urgent, x) := Sbi.next_urgent hwalker hengine rfl
    rw [hasked]
    by_cases hg : s.sbi.granted = true
    · rw [if_pos hg, Sbi.settle_begins (b := b) ho rfl hg hnext]
      rfl
    · rw [if_neg hg, Sbi.settle_requests (b := b) ho rfl (b.anyPending_iff.mpr (.inr (.inr nofun))) (Bool.eq_false_iff.mpr hg)]

end Sys2Proof.Machine
end
